-- ==== Sys2Proof/Word.lean ====
section
/-! DEFINITION. The word types of the block and their plainest arithmetic (00_scope, Notation). -/

namespace Sys2Proof

abbrev Byte := BitVec 8
abbrev W16 := BitVec 16
abbrev W32 := BitVec 32
abbrev W64 := BitVec 64
abbrev W128 := BitVec 128

/-- A byte string, lowest address first. -/
abbrev Bytes := List Byte

/-- Partition number, 0 for unassigned (R15). -/
abbrev PartNo := Fin 17
/-- Die number (R13). -/
abbrev DieNo := Fin 8
/-- Global quadrant number (R14). -/
abbrev QuadNo := Fin 32
/-- Side number within a die, 2e outer and 2e+1 inner (07, Stream engine sides). -/
abbrev SideNo := Fin 32
/-- Package shuttle number (R28). -/
abbrev ShuttleNo := Fin 256
/-- Thread of a shuttle (R221). -/
abbrev ThreadNo := Fin 16
/-- Chip port number (R29). -/
abbrev PortNo := Fin 12
/-- Global region number (R348). -/
abbrev RegionNo := Fin 256
/-- Request tag of a shuttle (R223). -/
abbrev TagNo := Fin 48
/-- PCIe function, 0 physical and 1 to 16 virtual (R375). -/
abbrev FuncNo := Fin 17

end Sys2Proof
end

