-- ==== Sys2Proof/Syntax.lean ====
section
/-! DEFINITION. The commands of the block: one constructor of `Instr` for each row of opcode_table.json, with the operands
the row's event carries (log entry 11). -/

namespace Sys2Proof

/-- A tile by its global coordinate (R12). -/
structure TileAt where
  x : BitVec 10
  y : BitVec 10
  deriving DecidableEq, Repr

/-- Who makes a request (R380, R382). -/
inductive Role
  | none
  | maker
  | installer
  | operator (p : PartNo)
  deriving DecidableEq, Repr

/-- Who reaches a window, a register or memory (R65, R373). -/
inductive Requester
  | shuttle (s : ShuttleNo) (t : ThreadNo)
  | host (f : FuncNo)
  | dxp (r : Role)
  | tile (at_ : TileAt)
  | loader (p : PartNo)
  | stepService (p : PartNo)
  deriving DecidableEq, Repr

/-- TRAY_SLOT and I3C_ADDR pins (R459). -/
structure Straps where
  traySlot : BitVec 2
  i3cAddr  : BitVec 3
  deriving DecidableEq, Repr

/-- Rails other than VAUX (Table 17-5). -/
inductive Rail | vphyH | vphyA | vin
  deriving DecidableEq, Repr

/-- Clocks whose loss resets the package (R466). -/
inductive RefClk | pkg | mgmt
  deriving DecidableEq, Repr

/-- JTAG instructions by kind (R476). -/
inductive JtagInstr
  | bypass
  | extest
  | sample
  | preload
  | idcode
  | extestPulse   -- IEEE 1149.6
  | extestTrain   -- IEEE 1149.6
  | vendorPrivate (code : Byte)
  deriving DecidableEq, Repr

/-- What happened in one phase for one unit (Table 13-4). `hang`: the work has not ended when the command does, so
PHASE_BOUND_EXPIRY or a later command continues it. `fallback` is the outcome of the alternative method, where there is one. -/
structure PhaseOutcome where
  phase    : Fin 12
  unit     : Fin 256
  ok       : Bool
  hang     : Bool
  fallback : Bool
  reason   : Byte
  elapsedUs : W32
  /-- What the phase found, by phase. P2: number + 1 of the first journal record that fails, 0 for none. P3: not 0 when no copy
  of the settings verifies. P6 and P7: the SHA-384 prefix of the unit's training values. P8: peer chip in [15:0], its port in
  [19:16], round trip in ns in [35:20]. P10: `pcie.link` in [15:0]. -/
  training : W64
  /-- P5: positions that failed. -/
  positions : List TileAt
  deriving DecidableEq, Repr

/-- S-slot register-register fields (Table 3-4). -/
structure SRR where
  rd : BitVec 4
  ra : BitVec 4
  rb : BitVec 4
  deriving DecidableEq, Repr

/-- S-slot register-immediate fields. -/
structure SRI where
  rd  : BitVec 4
  ra  : BitVec 4
  imm : BitVec 10
  deriving DecidableEq, Repr

/-- Fields of sld and sst: a register, a bank, a word and a half. -/
structure SMem where
  r    : BitVec 4
  bank : BitVec 4
  word : BitVec 7
  half : BitVec 1
  deriving DecidableEq, Repr

/-- Fields of sldp and sstp. -/
structure SPtr where
  r    : BitVec 4
  ptr  : BitVec 3
  half : BitVec 1
  inc  : Bool
  deriving DecidableEq, Repr

/-- Fields of loop. -/
structure SLoop where
  level   : BitVec 1
  fromReg : Bool
  stop    : BitVec 6
  count   : BitVec 10
  deriving DecidableEq, Repr

/-- A format mode (Table 3-13). -/
structure Mode where
  mfmt   : BitVec 3 := 0
  rmode  : BitVec 2 := 0
  srBits : BitVec 5 := 0
  deriving DecidableEq, Repr

/-- The V-slot fields after the opcode (Table 3-5). -/
structure VF where
  vd    : BitVec 3
  a     : BitVec 4
  b     : BitVec 4
  c     : BitVec 4
  ty    : BitVec 3
  bcast : BitVec 2
  inc   : Bool
  deriving DecidableEq, Repr

/-- The M-slot fields after the opcode (Table 3-7). -/
structure MF where
  stat : BitVec 2
  pa   : BitVec 3
  pp   : BitVec 3
  incA : Bool
  incP : Bool
  zero : Bool
  deriving DecidableEq, Repr

/-- K-slot knot operation fields (Table 3-10). -/
structure KKnot where
  viaHandle : Bool
  k         : BitVec 3
  n         : BitVec 8
  deriving DecidableEq, Repr

/-- What the sector code of HBM did with a read (R188). `beyond` is an error of three or more symbols: the code may detect
it, correct it wrongly, or miss it; the data returned is then the command's. -/
inductive SectorOutcome
  | clean
  | corrected
  | uncorrectable
  | beyondDetected
  | beyondMiscorrected (data : Bytes)
  | beyondMissed (data : Bytes)
  deriving DecidableEq, Repr

/-- Which HBM access of a side completes (R189). -/
inductive HbmAccess
  | slotWord (slot : Fin 80) (word : Nat)     -- the word of an active fetch or copy
  | writeBuffer                               -- the oldest words of the side's write buffer
  deriving DecidableEq, Repr

/-- RISC-V atomic operations (R222). -/
inductive AmoOp | lr | sc | swap | add | xor | and | or | min | max | minu | maxu
  deriving DecidableEq, Repr

/-- A scalar load or store of a thread: address x[rs1] + imm (R222). -/
structure ShMem where
  s    : ShuttleNo
  t    : ThreadNo
  reg  : BitVec 5
  fp   : Bool
  rs1  : BitVec 5
  imm  : BitVec 12
  size : BitVec 2     -- 2^size bytes
  sgn  : Bool
  deriving DecidableEq, Repr

/-- An extension instruction: R-type fields of Table 8-2. -/
structure ShOp where
  s   : ShuttleNo
  t   : ThreadNo
  rd  : BitVec 5
  rs1 : BitVec 5
  rs2 : BitVec 5
  deriving DecidableEq, Repr

/-- A chip-link packet (Table 11-2). -/
structure Packet where
  destChip  : W16
  srcChip   : W16
  cls       : BitVec 4
  fseq      : BitVec 12
  lseq      : BitVec 12
  hops      : BitVec 4
  target    : BitVec 48
  length    : BitVec 11
  first     : Bool
  last      : Bool
  poison    : Bool
  flowStart : Bool
  flow      : W16
  msgLen    : BitVec 17
  srcThread : BitVec 12
  tag       : BitVec 6
  operand   : W32
  crc       : W32
  payload   : Bytes
  deriving DecidableEq, Repr

/-- What the lanes' error correction met while a packet arrived: an uncorrectable codeword of it, codewords corrected, and symbol
errors by lane record (R295, R317, Table 11-8). -/
structure LineErrors where
  bad       : Bool := false
  corrected : Nat := 0
  symbols   : List (Fin 24 × Nat) := []
  deriving DecidableEq, Repr

/-- The transports of DXP with their session (R415). -/
inductive Transport
  | mgmt (addr : W128) (port : W16)
  | pcie (f : FuncNo)
  | i3c
  deriving DecidableEq, Repr

/-- A DXP frame as it stands on the wire (Table 15-7), reserved bytes included. -/
structure DxpFrame where
  magic     : W16
  version   : Byte
  op        : Byte
  flags     : Byte
  role      : Byte
  partition : Byte
  rsv7      : Byte
  requestId : W32
  index     : W16
  subindex  : Byte
  rsv15     : Byte
  offset    : W32
  length    : W16
  rsv22     : W16
  nonce     : W64
  data      : Bytes
  signature : Bytes
  deriving DecidableEq, Repr

/-- The path of a write to the event controller (R424, R429): the page of ring r, or the controller window. -/
inductive EvPath
  | page (r : FuncNo)
  | window
  deriving DecidableEq, Repr

/-- A register or entry without behaviour of its own (R18), named by its package offset or its dictionary name. -/
inductive RegAddr
  | offset (o : BitVec 48) (size : Nat)
  | entry (index : W16) (sub : Byte)
  deriving DecidableEq, Repr

/-- Maintenance activities (Table 16-5), in the order of the bits of maint.active. -/
inductive Activity
  | scrub | retrain | port | freq | selfTest | lace | save | firmware | audit
  deriving DecidableEq, Repr

/-- Whose knot request is sent again (R234). -/
inductive KnotAsker
  | tile (at_ : TileAt)
  | thread (s : ShuttleNo) (tag : TagNo)
  deriving DecidableEq, Repr

/-- The commands. -/
inductive Instr
  -- pins, reset, rails and clocks
  | vauxInRange (straps : Straps)
  | resetAssert (lowUs : Nat)
  | resetDeassert (straps : Straps)
  | railBrownOut (rail : Rail)
  | thermalTrip
  | refclkLost (c : RefClk)
  | rackRefclkLost
  | rackRefclkReturn
  | autoRestart
  | perstAssert
  | perstDeassert (rate : Byte) (width : Byte)
  | stepInEdge
  | stepPulse
  | pulseLost
  | spiGrantTimeout
  | jtagInstruction (i : JtagInstr)
  -- start
  | start (outcomes : List PhaseOutcome)
  | phaseBoundExpiry (outcomes : List PhaseOutcome)
  | startCommandRetry (by_ : Role) (outcomes : List PhaseOutcome)
  | startCommandSkip (by_ : Role) (outcomes : List PhaseOutcome)
  | startCommandRestart (by_ : Role) (outcomes : List PhaseOutcome)
  -- W-beats
  | executingWBeat (p : PartNo)
  | heldWBeat (p : PartNo)
  | idleWord (at_ : TileAt) (body : BitVec 124)
  | stopWord (at_ : TileAt) (body : BitVec 124)
  -- S slot
  | add (at_ : TileAt) (f : SRR)
  | sub (at_ : TileAt) (f : SRR)
  | and (at_ : TileAt) (f : SRR)
  | or (at_ : TileAt) (f : SRR)
  | xor (at_ : TileAt) (f : SRR)
  | shl (at_ : TileAt) (f : SRR)
  | shr (at_ : TileAt) (f : SRR)
  | sra (at_ : TileAt) (f : SRR)
  | slt (at_ : TileAt) (f : SRR)
  | sltu (at_ : TileAt) (f : SRR)
  | mul (at_ : TileAt) (f : SRR)
  | addi (at_ : TileAt) (f : SRI)
  | andi (at_ : TileAt) (f : SRI)
  | ori (at_ : TileAt) (f : SRI)
  | li (at_ : TileAt) (rd : BitVec 4) (imm : BitVec 14)
  | lui (at_ : TileAt) (rd : BitVec 4) (imm : BitVec 14)
  | sld (at_ : TileAt) (f : SMem)
  | sst (at_ : TileAt) (f : SMem)
  | sldp (at_ : TileAt) (f : SPtr)
  | sstp (at_ : TileAt) (f : SPtr)
  | setp (at_ : TileAt) (ptr : BitVec 3) (bank : BitVec 4) (word : BitVec 7)
  | setps (at_ : TileAt) (ptr : BitVec 3) (stride : BitVec 8)
  | setpr (at_ : TileAt) (ptr : BitVec 3) (ra : BitVec 4)
  | getp (at_ : TileAt) (rd : BitVec 4) (ptr : BitVec 3)
  | jmp (at_ : TileAt) (target : BitVec 6)
  | bz (at_ : TileAt) (ra : BitVec 4) (target : BitVec 6)
  | bnz (at_ : TileAt) (ra : BitVec 4) (target : BitVec 6)
  | jr (at_ : TileAt) (ra : BitVec 4)
  | swap (at_ : TileAt) (target : BitVec 6)
  | loop (at_ : TileAt) (f : SLoop)
  | mode (at_ : TileAt) (m : Mode)
  | moder (at_ : TileAt) (ra : BitVec 4)
  | modeTakesEffect (at_ : TileAt)
  | push (at_ : TileAt) (handle : BitVec 3) (ra rb : BitVec 4)
  | hoop (at_ : TileAt) (ra : BitVec 4)
  | rdsb (at_ : TileAt) (rd : BitVec 4)
  -- V slot
  | vadd (at_ : TileAt) (f : VF)
  | vsub (at_ : TileAt) (f : VF)
  | vmul (at_ : TileAt) (f : VF)
  | vfma (at_ : TileAt) (f : VF)
  | vmin (at_ : TileAt) (f : VF)
  | vmax (at_ : TileAt) (f : VF)
  | vssub (at_ : TileAt) (f : VF)
  | vcmplt (at_ : TileAt) (f : VF)
  | vcmple (at_ : TileAt) (f : VF)
  | vcmpeq (at_ : TileAt) (f : VF)
  | vsel (at_ : TileAt) (f : VF)
  | vcmpr (at_ : TileAt) (f : VF)
  | vexpand (at_ : TileAt) (f : VF)
  | vcvt (at_ : TileAt) (f : VF)
  | vlut (at_ : TileAt) (f : VF)
  | vluti (at_ : TileAt) (f : VF)
  | vrmax (at_ : TileAt) (f : VF)
  | vrsum (at_ : TileAt) (f : VF)
  | vtwosum (at_ : TileAt) (f : VF)
  | vtwoprod (at_ : TileAt) (f : VF)
  | vmov (at_ : TileAt) (f : VF)
  | vResultLands (at_ : TileAt)
  -- M slot
  | mload (at_ : TileAt) (f : MF)
  | mmac (at_ : TileAt) (f : MF)
  | mmacAccumulate (at_ : TileAt)
  | mdrain (at_ : TileAt) (f : MF)
  | mscale (at_ : TileAt) (f : MF)
  -- L slot
  | landWindow (at_ : TileAt) (land : BitVec 10)
  | vld (at_ : TileAt) (vd : BitVec 3) (ptr : BitVec 3) (inc : Bool) (half : BitVec 1) (land : BitVec 10)
  | arm (at_ : TileAt) (entry : BitVec 4) (ptr : BitVec 3) (length : BitVec 7) (paired inUse : Bool)
  | release (at_ : TileAt) (entry : BitVec 4)
  | flip (at_ : TileAt) (entry : BitVec 4)
  -- T slot
  | st (at_ : TileAt) (vs : BitVec 3) (ptr : BitVec 3) (inc : Bool) (half : BitVec 1)
  | drain (at_ : TileAt) (ptr : BitVec 3) (inc : Bool) (stream : BitVec 4)
  | drainv (at_ : TileAt) (vs : BitVec 3) (stream : BitVec 4)
  -- K slot
  | gate (at_ : TileAt) (entry : BitVec 4)
  | signal (at_ : TileAt) (f : KKnot)
  | wait (at_ : TileAt) (f : KKnot)
  | take (at_ : TileAt) (f : KKnot)
  | lock (at_ : TileAt) (f : KKnot)
  | unlock (at_ : TileAt) (f : KKnot)
  | cpush (at_ : TileAt) (handle : BitVec 3) (ptr : BitVec 3) (inc : Bool) (last : Bool)
  -- lane stops, holds and windows
  | laneStopTakesWord (at_ : TileAt)
  | haltFreeze (p : PartNo)
  | holdTimeout (p : PartNo)
  | tileWindowRead (by_ : Requester) (at_ : TileAt) (offset : BitVec 14) (size : Nat)
  | tileWindowReadTimeout (at_ : TileAt)
  | tileWindowWrite (by_ : Requester) (at_ : TileAt) (offset : BitVec 14) (data : Bytes)
  -- stream engine sides
  | triggerWrite (by_ : Requester) (die : DieNo) (side : SideNo) (value : W64)
  | sideAcceptDescriptor (die : DieNo) (side : SideNo)
  | hbmAccessComplete (die : DieNo) (side : SideNo) (a : HbmAccess) (outcome : SectorOutcome)
  | hbmRefresh (die : DieNo) (channel : Fin 32) (bank : Nat)
  | drainWordArrives (die : DieNo) (side : SideNo) (lane : Fin 16)
  | descriptorComplete (die : DieNo) (side : SideNo) (slot : Fin 80)
  | cqHeadWrite (by_ : Requester) (die : DieNo) (side : SideNo) (head : BitVec 12)
  | lightPathComplete (die : DieNo) (side : SideNo) (slot : Fin 24) (outcome : SectorOutcome)
  -- shuttles
  | shuttleLoad (f : ShMem)
  | shuttleStore (f : ShMem)
  | shuttleAtomic (s : ShuttleNo) (t : ThreadNo) (op : AmoOp) (rd rs1 rs2 : BitVec 5) (dword : Bool)
  | instructionFetchMiss (s : ShuttleNo) (t : ThreadNo)
  | fence (s : ShuttleNo) (t : ThreadNo)
  | requestCompletion (s : ShuttleNo) (tag : TagNo) (outcome : SectorOutcome)
  | threadQuantumExpiry (s : ShuttleNo)
  | shuttleException (s : ShuttleNo) (t : ThreadNo) (cause : W64) (tval : W64) (contextFault : Bool)
  | shuttleMachineException (s : ShuttleNo) (t : ThreadNo) (cause : W64)
  | shYield (f : ShOp)
  | shGet (f : ShOp)
  | shPut (f : ShOp)
  | shWtag (f : ShOp)
  | shPtag (f : ShOp)
  | shDesc (f : ShOp)
  | shKsig (f : ShOp)
  | shKwait (f : ShOp)
  | shKwaitg (f : ShOp)
  | shKtake (f : ShOp)
  | shKlock (f : ShOp)
  | shKunlock (f : ShOp)
  | shKread (f : ShOp)
  | shKinit (f : ShOp)
  | shChopen (f : ShOp)
  | shChsend (f : ShOp)
  | shChack (f : ShOp)
  | shChpoll (f : ShOp)
  | shChclose (f : ShOp)
  | shCqopen (f : ShOp)
  | shCqadd (f : ShOp)
  | shCqclose (f : ShOp)
  -- knots, channels and combining queues: `ix` is the place of a message under way in State.net, oldest 0
  | knotOperationApplied (ix : Nat)
  | knotReply (ix : Nat)
  | knotRetry (a : KnotAsker)
  | forwarderMessage (die : DieNo) (side : SideNo)
  | forwarderRetry (die : DieNo) (side : SideNo)
  | channelMessageArrival (ix : Nat)
  | cqContributionArrival (ix : Nat)
  | cqMessageWritten (s : ShuttleNo) (q : Fin 16)
  -- patterns and steps
  | patternLoad (by_ : Role) (p : PartNo) (writeOk : Bool)
  | patternUnload (by_ : Role) (p : PartNo)
  | regionUngate (p : PartNo)
  | stepStart (by_ : Role) (p : PartNo)
  | stepStop (by_ : Role) (p : PartNo)
  | stepAbortCommand (by_ : Role) (p : PartNo)
  | checkpointCommand (by_ : Role) (p : PartNo)
  | preEmpt (by_ : Role) (p : PartNo)
  | resume (by_ : Role) (p : PartNo)
  | restoreCheckpoint (by_ : Role) (p : PartNo)
  | stepBoundary (p : PartNo)
  | stepAbort (p : PartNo) (cause : Byte)
  | stepTimeout (p : PartNo)
  -- chip links
  | laneMapWrite (by_ : Role) (map : Bytes)
  | portModeWrite (by_ : Role) (port : PortNo) (mode : Byte)
  | packetReceive (port : PortNo) (pk : Packet) (line : LineErrors)
  | linkRetryRequest (port : PortNo) (lseq : BitVec 12)
  | linkAck (port : PortNo) (lseq : BitVec 12)
  | creditGrant (port : PortNo) (units : Nat)
  | lossOfSignal (port : PortNo)
  | packetDeparture (p : PartNo)
  | e2eAck (port : PortNo) (chip : W16) (flow : W16) (fseq : BitVec 12)
  | nak (port : PortNo) (chip : W16) (flow : W16) (fseq : BitVec 12) (reason : BitVec 2) (status : Byte)
  | nakRetransmit (p : PartNo) (chip : W16) (flow : W16)
  | e2eTimeout (p : PartNo) (chip : W16) (flow : W16)
  | flowEntryExpiry (port : PortNo) (chip : W16) (flow : W16)
  | peerUnreachable (p : PartNo) (chip : W16)
  | routeTableWrite (by_ : Role) (p : PartNo) (chip : BitVec 12) (ports : W16)
  | unreachableChipsWrite (by_ : Role) (p : PartNo) (bits : Bytes)
  | serviceStepAbort (p : PartNo) (step : BitVec 48) (cause : Byte)
  | serviceCountExchange (p : PartNo) (peer : W16) (step : BitVec 48) (counts : List (W64 × W32))
  | serviceBarrier (p : PartNo) (peer : W16) (step : BitVec 48)
  | timeSyncExchange (t1 t2 t3 t4 : Int)
  | spoolRequest (by_ : Requester) (port : PortNo) (slot : Fin 64) (w0 w1 w2 w3 : W64)
  | spoolDataFrame (port : PortNo) (requestId : W32) (offset : W64) (payload : Bytes) (check : W32)
  | spoolErrorFrame (port : PortNo) (requestId : W32) (code : W32)
  | spoolRetryTimeout (port : PortNo) (slot : Fin 64)
  | spoolStatusRead (by_ : Requester) (port : PortNo) (slot : Fin 64)
  | neighborSolicitation (port : PortNo) (target : W128) (source : W128)
  | echoRequest (port : PortNo) (target : W128) (source : W128) (payload : Bytes)
  -- lacework
  | laceLoad (by_ : Role) (g : QuadNo)
  | laceEmpty (by_ : Role) (g : QuadNo)
  | laceCapture (by_ : Requester) (g : QuadNo)
  | fabricTick (g : QuadNo)
  | laceworkReadback (by_ : Role) (g : QuadNo) (ffState : Bool)
  -- clocks and power
  | changePoint (p : PartNo)
  | beatSwitch (p : PartNo)
  | monitorReport (r : RegionNo) (codes : W16) (celsius : Byte)
  | powerSample (watts : W16)
  | powerProtectClear (by_ : Role)
  | powerLimitWrite (by_ : Role) (share : Option PartNo) (watts : W16)
  -- partitions and security
  | configCommit (by_ : Role)
  | configDiscard (by_ : Role)
  | saveMoveComplete (p : PartNo)
  | hostWindowAccess (f : FuncNo) (o : BitVec 28) (size : Nat) (write : Option Bytes) (outcome : SectorOutcome)
  | installerKeyWrite (signed : Bool) (key : Bytes)
  | makerGrantWrite (by_ : Role) (grant : Bytes)
  | grantExpiry
  | approvedModeEnter (by_ : Role)
  | approvedModeLeave (by_ : Role)
  | zeroise (by_ : Role)
  | moduleError
  | caerecServiceSlot
  | attestNonceWrite (by_ : Role) (nonce : Bytes)
  | attestReportRead (by_ : Role)
  | auditExportedToWrite (by_ : Role) (n : W64)
  | auditAnchorRequest (by_ : Role)
  | firmwareVerify (by_ : Role)
  | firmwareMarkActive (by_ : Role)
  | firmwareCancel (by_ : Role)
  -- dictionary
  | dxpRead (tr : Transport) (f : DxpFrame)
  | dxpWrite (tr : Transport) (f : DxpFrame)
  | dxpSegmentRead (tr : Transport) (f : DxpFrame)
  | dxpWriteInitiate (tr : Transport) (f : DxpFrame)
  | dxpSegmentWrite (tr : Transport) (f : DxpFrame)
  | dxpDescribe (tr : Transport) (f : DxpFrame)
  | dxpCancel (tr : Transport) (f : DxpFrame)
  | dxpTransferTimeout (tr : Transport)
  | i3cRequest (op sub : Byte) (index offset : W16)
  | mbDoorbell (f : FuncNo) (length : BitVec 13)
  | mgmtEchoRequest (v6 : Bool) (target : W128) (payload : Bytes)
  | mgmtAddressResolution (v6 : Bool) (target : W128)
  | registerWrite (by_ : Requester) (a : RegAddr) (value : Bytes)
  -- events
  | eventControllerClock
  | eventRecordWrite
  | enableSet (via : EvPath) (bits : BitVec 1024)
  | enableClear (via : EvPath) (bits : BitVec 1024)
  | pendingSet (via : EvPath) (bits : BitVec 1024)
  | pendingClear (via : EvPath) (bits : BitVec 1024)
  | complete (via : EvPath) (source : BitVec 10)
  | holdoffWrite (by_ : Role) (v : Bool)
  | ringCfgWrite (r : FuncNo) (value : W64)
  | ringBaseWrite (r : FuncNo) (value : W64)
  | ringHeadWrite (r : FuncNo) (head : BitVec 12)
  -- readback, debug, record and replay, maintenance
  | readbackDataRead (by_ : Role) (w : FuncNo) (offset : Nat) (length : Nat) (outcome : SectorOutcome)
  | readbackDataWrite (by_ : Role) (w : FuncNo) (offset : Nat) (data : Bytes)
  | holdNow (by_ : Role) (p : PartNo)
  | holdAtSBeat (by_ : Role) (p : PartNo)
  | debugFreeze (p : PartNo)
  | debugRelease (by_ : Role) (p : PartNo)
  | debugStep (by_ : Role) (p : PartNo)
  | snapshot (by_ : Role) (p : PartNo)
  | snapshotDone (p : PartNo)
  | knotSet (by_ : Role) (p : PartNo) (addr : W64) (value : W64)
  | recordArm (by_ : Role) (p : PartNo)
  | recordEnd (by_ : Role) (p : PartNo)
  | replayStart (by_ : Role) (p : PartNo)
  | replayAbandon (by_ : Role) (p : PartNo)
  | recordDataWrite (by_ : Role) (p : PartNo) (data : Bytes)
  | replayStampedInput (p : PartNo)
  | replayStall (p : PartNo)
  | hbmScrub (by_ : Role) (die : DieNo) (channel : Fin 32)
  | hbmRetraining (by_ : Role) (die : DieNo) (channel : Fin 32)
  | portRetraining (by_ : Role) (port : PortNo)
  | tileMemorySelfTest (by_ : Role) (g : QuadNo)
  | maintScheduleFire (die : DieNo)
  | maintActivityEnd (die : DieNo) (a : Activity) (ok : Bool) (positions : List TileAt)
  -- later rows of the table
  | vauxLost
  | regionGate (p : PartNo)
  | spiGrant
  | linkAcknowledgementTimer (port : PortNo)
  | e2eAcknowledgementTimer (port : PortNo) (chip : W16) (flow : W16)
  | pauseFrame (port : PortNo) (pause : Bool)
  | mgmtFrameDiscard
  | mgmtLinkChange (up : Bool)
  | dynamicAddressAssignment (addr : BitVec 7)
  deriving DecidableEq, Repr

end Sys2Proof
end

