-- ==== Sys2Proof/Decode.lean ====
section
/-! DEFINITION. Commands from words. No row of opcode_table.json gives its command any bits: a command is an event with operands,
and no word spells one (log 11). -/

namespace Sys2Proof

/-- The command that a word of `nbits` bits spells: none, for every word. -/
def decodeTableWord (_nbits _w : Nat) : Option Instr := none

end Sys2Proof
end

