-- ==== Sys2Proof/Config.lean ====
section
/-! DEFINITION. What the manual fixes for the whole part, and the free values: constants without a body for what it leaves
open. `n` counts the free values used so far (State.freeCount). -/

namespace Sys2Proof.Config

/-- A byte of HBM under a key it was not written with (R371, R384): unrelated to the bytes before. -/
opaque hbmUnrelated (n : Nat) (address : Nat) : Byte

/-- RESET# low between 100 µs and 1 ms may reset the package (R461). -/
opaque shortResetResets (n : Nat) : Bool

/-- The module's signature over a message (R388, R393, R394): 96 bytes. -/
opaque signature (n : Nat) (message : Bytes) : Bytes

/-- The public half of a key that the module makes. -/
opaque publicKey (n : Nat) : Bytes

/-- Data under one of the module's keys (R384 to R386, R393). -/
opaque sealed (n : Nat) (plain : Bytes) : Bytes

/-- Energy of an interval under the coefficients of the fuses (R356), which the manual does not give. -/
opaque energy (n : Nat) : Nat

/-- Values that calibration and training leave in the training area (R362). -/
opaque training (n : Nat) (unit : Nat) : Nat

/-- A readiness figure of the board or silicon that the manual only names (temperatures, rails, revisions). -/
opaque reading (n : Nat) : Nat

/-- A choice among orders that the manual does not fix (R193, R195, R244). -/
opaque choice (n : Nat) (options : Nat) : Nat

/-- Bits of a thread's control and status register that RISC-V leaves to the implementation. -/
opaque csrFree (n : Nat) (csr : Nat) : W64

/-- What a source of a lacework cell reads where no wire ends (Table 12-2). -/
opaque laceOpen (cell : Nat) (source : Nat) : Bool

/-- Which of several wires that end at one cell of the segment's edge a source reads (R321). -/
opaque laceWire (cell : Nat) (wire : Nat) (candidates : Nat) : Nat

/-- Bytes that a contribution to a combining queue of another package has (R227, R248): its sender does not know the width. -/
opaque contribution (n : Nat) : Nat

/-- What `sh.kread` writes where its address names no knot (R227). -/
opaque knotRead (n : Nat) : W64

/-- `word_addr` of an `end_of_half` record (R93, Table 3-17): the word at index 64 has no address of seven bits. -/
opaque endAddr (half : Bool) (sBeat : Nat) : BitVec 7

end Sys2Proof.Config
end

