-- ==== Sys2Proof/Machine/Formats.lean ====
section
/-! DEFINITION. Number formats and arithmetic (05): exact values, one rounding at a stated place. -/

namespace Sys2Proof.Machine

/-- The exact value of a code: `fin neg m e` is (−1)^neg × m × 2^e (R134). -/
inductive FpNum
  | nan
  | inf (neg : Bool)
  | fin (neg : Bool) (m : Nat) (e : Int)
  deriving DecidableEq, Repr

/-- A format of Table 5-1 with an exponent and a fraction. `maxCode` is the magnitude code of the largest finite value,
`infCode` that of infinity where there is one, `nanCode` the canonical NaN where there is one (R137). -/
structure Fmt where
  ebits   : Nat
  fbits   : Nat
  bias    : Nat
  maxCode : Nat
  infCode : Option Nat
  nanCode : Option Nat
  deriving DecidableEq, Repr

def fmtE2M1 : Fmt := ⟨2, 1, 1, 0x7, none, none⟩
def fmtE3M2 : Fmt := ⟨3, 2, 3, 0x1F, none, none⟩
def fmtE4M3 : Fmt := ⟨4, 3, 7, 0x7E, none, some 0x7F⟩
def fmtE5M2 : Fmt := ⟨5, 2, 15, 0x7B, some 0x7C, some 0x7E⟩
def fmtBF16 : Fmt := ⟨8, 7, 127, 0x7F7F, some 0x7F80, some 0x7FC0⟩
def fmtFP32 : Fmt := ⟨8, 23, 127, 0x7F7FFFFF, some 0x7F800000, some 0x7FC00000⟩

def fmtWidth (F : Fmt) : Nat := 1 + F.ebits + F.fbits

/-- Exponent of the smallest subnormal (R134). -/
def fmtQmin (F : Fmt) : Int := 1 - (F.bias : Int) - F.fbits

/-- R134, with the infinity and NaN codes of Table 5-1. -/
def decodeCode (F : Fmt) (c : Nat) : FpNum :=
  let mag := c % 2 ^ (F.ebits + F.fbits)
  let neg := c / 2 ^ (F.ebits + F.fbits) % 2 == 1
  if F.infCode == some mag then .inf neg
  else if mag > F.maxCode then .nan
  else
    let f := mag % 2 ^ F.fbits
    let e := mag / 2 ^ F.fbits
    if e = 0 then .fin neg f (fmtQmin F) else .fin neg (f + 2 ^ F.fbits) (fmtQmin F + e - 1)

/-- R135. -/
def decodeT2 (c : Nat) : FpNum :=
  match c % 4 with
  | 1 => .fin false 1 0
  | 3 => .fin true 1 0
  | _ => .fin false 0 0

/-- The grid place of a magnitude m × 2^e on the grid of spacing 2^q: its whole part, the remainder and the number of bits the
remainder has. -/
def onGrid (q : Int) (m : Nat) (e : Int) : Nat × Nat × Nat :=
  if q ≤ e then (m <<< (e - q).toNat, 0, 0)
  else
    let sh := (q - e).toNat
    (m >>> sh, m % 2 ^ sh, sh)

/-- Spacing exponent of the unbounded grid of F at m × 2^e (R151). -/
def gridExp (F : Fmt) (m : Nat) (e : Int) : Int :=
  max (fmtQmin F) ((m.log2 : Int) + e - F.fbits)

/-- Rounding modes 0 to 3 of R151 on a grid place; `k` random bits with draw `r` for mode 2 (R155). -/
def roundPlace (rmode k r : Nat) (p : Nat × Nat × Nat) : Nat :=
  let (n, rem, sh) := p
  if rem = 0 then n
  else match rmode with
    | 0 => if 2 * rem < 2 ^ sh then n else if 2 * rem > 2 ^ sh then n + 1 else n + n % 2
    | 1 => if n % 2 = 1 then n else n + 1
    | 2 => if rem * 2 ^ k / 2 ^ sh + r ≥ 2 ^ k then n + 1 else n
    | _ => n

/-- Magnitude code of n × 2^q on the grid of F; it may lie beyond `maxCode`. -/
def gridCode (F : Fmt) (n : Nat) (q : Int) : Nat := n + (q - fmtQmin F).toNat * 2 ^ F.fbits

def withSign (F : Fmt) (neg : Bool) (mag : Nat) : Nat := if neg then mag + 2 ^ (F.ebits + F.fbits) else mag

/-- What a conversion gives: a code, and whether it counts in `sat_count` and in `nan_to_narrow` (R161, R153). -/
structure Conv where
  code : Nat
  sat  : Bool
  nan  : Bool
  deriving DecidableEq, Repr

/-- Formats with infinities that overflow to infinity under `rmode` 0 and 2 (R152). -/
def fmtWide (F : Fmt) : Bool := F.ebits == 8

/-- R151 to R153 for a destination of Table 5-1 with an exponent. -/
def convertFmt (F : Fmt) (rmode k r : Nat) (x : FpNum) : Conv :=
  match x with
  | .nan =>
    match F.nanCode with
    | some c => ⟨c, false, false⟩
    | none => ⟨0, true, true⟩
  | .inf neg =>
    match F.infCode with
    | some c => ⟨withSign F neg c, false, false⟩
    | none => ⟨withSign F neg F.maxCode, true, false⟩
  | .fin neg m e =>
    if m = 0 then ⟨withSign F neg 0, false, false⟩
    else
      let q := gridExp F m e
      let c := gridCode F (roundPlace rmode k r (onGrid q m e)) q
      if c ≤ F.maxCode then ⟨withSign F neg c, false, false⟩
      else if fmtWide F then
        if rmode = 0 ∨ rmode = 2 then ⟨withSign F neg (F.maxCode + 1), false, false⟩
        else ⟨withSign F neg F.maxCode, false, false⟩
      else ⟨withSign F neg F.maxCode, true, false⟩

/-- R151 to R153 for T2. -/
def convertT2 (rmode k r : Nat) (x : FpNum) : Conv :=
  match x with
  | .nan => ⟨0, true, true⟩
  | .inf neg => ⟨if neg then 3 else 1, true, false⟩
  | .fin neg m e =>
    let n := roundPlace rmode k r (onGrid 0 m e)
    if n = 0 then ⟨0, false, false⟩
    else ⟨if neg then 3 else 1, n > 1, false⟩

/-- R151 to R153 for I32. -/
def convertI32 (rmode k r : Nat) (x : FpNum) : Conv :=
  match x with
  | .nan => ⟨0, false, false⟩
  | .inf neg => ⟨if neg then 0x80000000 else 0x7FFFFFFF, false, false⟩
  | .fin neg m e =>
    let n := roundPlace rmode k r (onGrid 0 m e)
    if neg then ⟨if n > 0x80000000 then 0x80000000 else (2 ^ 32 - n) % 2 ^ 32, false, false⟩
    else ⟨if n > 0x7FFFFFFF then 0x7FFFFFFF else n, false, false⟩

/-- RNE(x, F) as a code. -/
def rne (F : Fmt) (x : FpNum) : Nat := (convertFmt F 0 0 0 x).code

def signedOf (neg : Bool) (m : Nat) : Int := if neg then -(m : Int) else m

/-- Exact sum of two finite values; an exact zero carries the sign `zneg`. -/
def addFin (zneg : Bool) (n1 : Bool) (m1 : Nat) (e1 : Int) (n2 : Bool) (m2 : Nat) (e2 : Int) : FpNum :=
  let e := min e1 e2
  let s := signedOf n1 (m1 <<< (e1 - e).toNat) + signedOf n2 (m2 <<< (e2 - e).toNat)
  if s = 0 then .fin zneg 0 e else .fin (s < 0) s.natAbs e

/-- IEEE 754 sum, exact (R147); two zeros of one sign keep it. -/
def addNum (a b : FpNum) : FpNum :=
  match a, b with
  | .nan, _ => .nan
  | _, .nan => .nan
  | .inf x, .inf y => if x == y then .inf x else .nan
  | .inf x, _ => .inf x
  | _, .inf y => .inf y
  | .fin n1 m1 e1, .fin n2 m2 e2 => addFin (n1 && n2 && m1 == 0 && m2 == 0) n1 m1 e1 n2 m2 e2

def negNum : FpNum → FpNum
  | .nan => .nan
  | .inf n => .inf (!n)
  | .fin n m e => .fin (!n) m e

/-- IEEE 754 product, exact (R147). -/
def mulNum (a b : FpNum) : FpNum :=
  match a, b with
  | .nan, _ => .nan
  | _, .nan => .nan
  | .inf x, .inf y => .inf (x ^^ y)
  | .inf x, .fin n m _ => if m = 0 then .nan else .inf (x ^^ n)
  | .fin n m _, .inf y => if m = 0 then .nan else .inf (n ^^ y)
  | .fin n1 m1 e1, .fin n2 m2 e2 => .fin (n1 ^^ n2) (m1 * m2) (e1 + e2)

/-- Multiplication by 2^s. -/
def scaleNum (s : Int) : FpNum → FpNum
  | .fin n m e => .fin n m (e + s)
  | x => x

def numIsNan : FpNum → Bool
  | .nan => true
  | _ => false

def numIsZero : FpNum → Bool
  | .fin _ m _ => m == 0
  | _ => false

/-- Order of two values that are not NaN, with +0 equal to −0. -/
def numLt (a b : FpNum) : Bool :=
  match a, b with
  | .nan, _ => false
  | _, .nan => false
  | .inf x, .inf y => x && !y
  | .inf x, _ => x
  | _, .inf y => !y
  | .fin n1 m1 e1, .fin n2 m2 e2 =>
    let e := min e1 e2
    signedOf n1 (m1 <<< (e1 - e).toNat) < signedOf n2 (m2 <<< (e2 - e).toNat)

def numEq (a b : FpNum) : Bool := !numIsNan a && !numIsNan b && !numLt a b && !numLt b a

def numNeg : FpNum → Bool
  | .nan => false
  | .inf n => n
  | .fin n _ _ => n

/-- The exact sum S of a list of products (R142): exact zero is +0. -/
def groupSum (ps : List FpNum) : FpNum :=
  if ps.any numIsNan then .nan
  else
    let pos := ps.any (· == .inf false)
    let neg := ps.any (· == .inf true)
    if pos && neg then .nan
    else if pos then .inf false
    else if neg then .inf true
    else ps.foldl (fun acc p =>
      match acc, p with
      | .fin n1 m1 e1, .fin n2 m2 e2 => addFin false n1 m1 e1 n2 m2 e2
      | a, _ => a) (.fin false 0 0)

/-- Matrix addition: as IEEE 754 but an exact zero is +0 whatever the signs (R144). -/
def addMatrix (a b : FpNum) : FpNum :=
  match addNum a b with
  | .fin n m e => if m = 0 then .fin false 0 e else .fin n m e
  | x => x

/-- RNE(P + S, FP32) as 32 bits (R143, R144). -/
def accFP32 (p : W32) (s : FpNum) : W32 :=
  let r := rne fmtFP32 (addMatrix (decodeCode fmtFP32 p.toNat) s)
  if r = 0x80000000 then 0 else BitVec.ofNat 32 r

/-- Bits of element `k` of width `w` in a value (R40). -/
def element (w k : Nat) (v : Nat) : Nat := v >>> (w * k) % 2 ^ w

/-- Matrix element format of `mfmt` (Table 3-13): the value of a code. -/
def decodeMfmt (mfmt : BitVec 3) (c : Nat) : FpNum :=
  match mfmt.toNat with
  | 0 => decodeT2 c
  | 1 => decodeCode fmtE2M1 c
  | 2 => decodeCode fmtE3M2 c
  | 3 => decodeCode fmtE4M3 c
  | 4 => decodeCode fmtE5M2 c
  | _ => decodeCode fmtBF16 c

/-- Element width of `mfmt`. -/
def mfmtWidth (mfmt : BitVec 3) : Nat :=
  match mfmt.toNat with
  | 0 => 2
  | 1 => 4
  | 2 => 6
  | 3 => 8
  | 4 => 8
  | _ => 16

/-- E of Table 4-2. -/
def mfmtE (mfmt : BitVec 3) : Nat :=
  match mfmt.toNat with
  | 0 => 32
  | 1 => 16
  | 5 => 4
  | _ => 8

/-- g of Table 4-2. -/
def mfmtGroup (mfmt : BitVec 3) : Nat := if mfmt.toNat = 5 then 8 else 4

/-- The number of T2 codes 0b10 in a word (R141). -/
def countT2Invalid (w : W64) : Nat := ((List.range 32).filter fun k => element 2 k w.toNat == 2).length

/-- The four lane types of V-slot arithmetic as values (Table 6-1); I32 and U8 as integers. -/
def decodeLane (ty : BitVec 3) (c : Nat) : FpNum :=
  match ty.toNat with
  | 0 => decodeCode fmtBF16 c
  | 1 => decodeCode fmtFP32 c
  | 2 => decodeCode fmtE4M3 c
  | 3 => decodeCode fmtE5M2 c
  | 4 => .fin false c 0
  | _ => if c < 2 ^ 31 then .fin false c 0 else .fin true (2 ^ 32 - c) 0

/-- Width of a lane (Table 6-1). -/
def laneWidth (ty : BitVec 3) : Nat :=
  match ty.toNat with
  | 0 => 16
  | 1 => 32
  | 5 => 32
  | _ => 8

/-- Lanes of a type (Table 6-1). -/
def laneCount (ty : BitVec 3) : Nat := 128 / laneWidth ty

/-- A lane of a register. -/
def lane (w k : Nat) (v : W128) : Nat := element w k v.toNat

/-- A register from its lanes, lane 0 lowest. -/
def ofLanes (w : Nat) (ls : List Nat) : W128 :=
  BitVec.ofNat 128 (ls.foldr (fun c acc => c % 2 ^ w + acc * 2 ^ w) 0)

def mapLanes (ty : BitVec 3) (f : Nat → Nat) : W128 :=
  ofLanes (laneWidth ty) ((List.range (laneCount ty)).map f)

/-- One rounding of an exact result to the lane type; I32 wraps (R147, R170). -/
def roundLane (ty : BitVec 3) (x : FpNum) : Nat :=
  match ty.toNat with
  | 0 => rne fmtBF16 x
  | 1 => rne fmtFP32 x
  | _ =>
    match x with
    | .fin n m e => (BitVec.ofInt 32 (signedOf n (m <<< e.toNat))).toNat
    | _ => 0

/-- R170: minimum and maximum of two lanes, +0 counted as larger than −0; U8 unsigned, I32 signed. -/
def minMaxLane (ty : BitVec 3) (max_ : Bool) (a b : Nat) : Nat :=
  let x := decodeLane ty a
  let y := decodeLane ty b
  if numIsNan x || numIsNan y then roundLane ty .nan
  else
    let aSmaller := numLt x y || (numEq x y && numNeg x && !numNeg y)
    if aSmaller == max_ then b else a

/-- R160: the exact difference of a result and its rounding, rounded. -/
def compensated (ty : BitVec 3) (x : FpNum) : Nat × Nat :=
  let hi := roundLane ty x
  let lo := match decodeLane ty hi with
    | .nan => roundLane ty .nan
    | .inf _ => 0
    | h => match addNum x (negNum h) with
      | .fin n m e => if m = 0 then 0 else roundLane ty (.fin n m e)
      | y => roundLane ty y
  (hi, lo)

end Sys2Proof.Machine
end

