-- ==== Sys2Proof/Machine/TileState.lean ====
section
/-! DEFINITION. The state of a tile (02 to 08): plain data, every field zero or empty as start phase P5 leaves it (R371). -/

namespace Sys2Proof.Machine

/-- A store by number, addresses strictly rising and no entry equal to the default that an unlisted number reads as. -/
abbrev Sparse (α : Type) := List (Nat × α)

/-- A value with its poison bit (R214). -/
structure Pz (w : Nat) where
  data   : BitVec w := 0
  poison : Bool := false
  deriving DecidableEq, Repr

/-- Scoreboard entry (Table 2-3). -/
structure ScoreEntry where
  bank     : BitVec 4 := 0
  base     : BitVec 7 := 0
  length   : BitVec 8 := 0
  paired   : Bool := false
  inUse    : Bool := false
  received : BitVec 8 := 0
  poison   : Bool := false
  valid    : Bool := false
  armed    : Bool := false
  fills    : W32 := 0
  lastFill : W32 := 0
  deriving DecidableEq, Repr

/-- A word in the landing buffer (Table 2-5). The list that holds it is oldest first; `slot` is its place in the window.
`faulted`: it raised a fault on entering and never lands (R50). -/
structure LandWord where
  slot    : BitVec 2
  data    : W64
  offset  : BitVec 7
  entry   : BitVec 4
  poison  : Bool
  faulted : Bool
  deriving DecidableEq, Repr

/-- A knot of a tile or a shuttle (Table 2-7, Table 8-9): state 0 open, 1 locked, 2 broken. -/
structure Knot where
  count     : W16 := 0
  gen       : W16 := 0
  state     : BitVec 2 := 0
  owner     : BitVec 12 := 0
  ownerTile : Bool := false
  waiters   : Byte := 0
  ownerX    : BitVec 10 := 0
  ownerY    : BitVec 10 := 0
  deriving DecidableEq, Repr

/-- Who asks: a shuttle thread by its package thread number, or a tile. -/
structure KnotUser where
  tile   : Bool
  thread : BitVec 12
  x      : BitVec 10
  y      : BitVec 10
  deriving DecidableEq, Repr

/-- A pointer (R74, R75). -/
structure Ptr where
  bank   : BitVec 4 := 0
  word   : BitVec 7 := 0
  stride : BitVec 8 := 0
  deriving DecidableEq, Repr

/-- A pointer change made by a slot of the word in progress, applied at the end of the beat (R75). `set` wins. -/
structure PtrOp where
  ptr   : BitVec 3
  set   : Option Ptr
  deriving DecidableEq, Repr

/-- Hardware loop level (Table 3-15). -/
structure LoopLevel where
  remaining : W32 := 0
  start     : BitVec 6 := 0
  stop      : BitVec 6 := 0
  active    : Bool := false
  deriving DecidableEq, Repr

/-- Issue state of a head tile (Table 3-15, R91 to R99). `brSwap`: the branch in flight is a swap; `brAddr` its word address;
`ended`: it issues nothing after index 63 (R93); `endRaised`: the fault of that run has been raised; `curAddr`: the address
of the word in progress, which for an idle word is that word's. -/
structure IssueState where
  nextAddr  : BitVec 7 := 0
  curAddr   : BitVec 7 := 0
  delayLeft : BitVec 2 := 0
  brTaken   : Bool := false
  brTarget  : BitVec 6 := 0
  brSwap    : Bool := false
  brAddr    : BitVec 7 := 0
  stopped   : Bool := false
  idleLeft  : Byte := 0
  ended     : Bool := false
  endRaised : Bool := false
  half      : Bool := false
  loop0     : LoopLevel := {}
  loop1     : LoopLevel := {}
  /-- Level 1 activated later than level 0. -/
  oneInner  : Bool := false
  deriving DecidableEq, Repr

/-- Format mode in force and the one about to take effect, with the S-beat from which words use it (R94). -/
structure ModeState where
  cur  : Mode := ⟨1, 0, 8⟩
  pend : Mode := {}
  due  : Option Nat := none
  deriving DecidableEq, Repr

/-- A word of the outbound queue (R237). -/
structure OutWord where
  data   : W64
  first  : Bool
  last   : Bool
  knot   : Bool
  poison : Bool
  deriving DecidableEq, Repr

/-- Pending pushes (R85, Table 3-15): an occupied register holds its words. `kOlder`: both are occupied and the K-slot's came
first. -/
structure PushState where
  sWords    : List OutWord := []
  sHandle   : BitVec 3 := 0
  sValue    : W64 := 0
  kWords    : List OutWord := []
  kHandle   : BitVec 3 := 0
  kValue    : W64 := 0
  kOlder    : Bool := false
  pushHolds : W16 := 0
  deriving DecidableEq, Repr

/-- Fault record (Table 3-17). -/
structure FaultRec where
  code          : Byte := 0
  slot          : BitVec 3 := 0
  valid         : Bool := false
  branchPending : Bool := false
  branchTaken   : Bool := false
  modePending   : Bool := false
  loopEnd       : Bool := false
  loopBack      : Bool := false
  addrValid     : Bool := false
  head          : Bool := false
  wordAddr      : BitVec 7 := 0
  issueOffset   : BitVec 12 := 0
  modeAt        : Mode := {}
  later         : W16 := 0
  sBeat         : W64 := 0
  wBeat         : W64 := 0
  headX         : BitVec 10 := 0
  headY         : BitVec 10 := 0
  detail        : W32 := 0
  word          : W128 := 0
  deriving DecidableEq, Repr

/-- Hoop membership (Table 4-5); `table` holds the eight entries as words. `next`: the entry a `hoop` has selected (R111). -/
structure HoopState where
  table      : Sparse W64 := []
  index      : BitVec 3 := 0
  parked     : Bool := false
  row        : BitVec 10 := 0
  col        : BitVec 10 := 0
  source     : BitVec 2 := 0
  bottom     : Bool := false
  west       : Bool := false
  top        : Bool := false
  offset     : BitVec 12 := 0
  emptyBeats : W32 := 0
  switches   : W16 := 0
  next       : Option (BitVec 3) := none
  deriving DecidableEq, Repr

/-- An M-slot operation in flight (Table 4-6, and an `mscale`, which the window does not show). `sum` is the exact group sum;
`value` the FP32 output once it is `formed`; `bank`, `ptr` and `row` where `pp` pointed; `top`: it takes zero as its incoming
partial sum (R121); `accum`: it will access P-mem, and `landed`: it has. -/
structure MFlight where
  op        : BitVec 4
  stat      : BitVec 2 := 0
  phase     : BitVec 3 := 0
  mfmt      : BitVec 3 := 0
  exec      : Nat
  position  : BitVec 2 := 0
  bank      : BitVec 4 := 0
  ptr       : BitVec 3 := 0
  row       : BitVec 6 := 0
  output    : Bool := false
  accum     : Bool := false
  zero      : Bool := false
  top       : Bool := false
  sum       : FpNum := .fin false 0 0
  value     : W32 := 0
  poison    : Bool := false
  scale     : W64 := 0
  formed    : Bool := false
  landed    : Bool := false
  deriving DecidableEq, Repr

/-- Matrix array registers (Table 4-5, R124, R127, R118). -/
structure ArrayState where
  stat       : Sparse (Pz 64) := []
  acc        : Sparse (Pz 32) := []
  phase      : BitVec 3 := 0
  groupMfmt  : BitVec 3 := 0
  groupStat  : BitVec 2 := 0
  fp6        : BitVec 2 := 0
  inGroup    : Bool := false
  loadShifts : BitVec 13 := 0
  heldA      : Sparse (Pz 64) := []
  heldB      : Sparse (Pz 64) := []
  pipe       : List MFlight := []
  deriving DecidableEq, Repr

/-- Which register file a result in flight goes to. -/
inductive Target | scalar | vector | mask
  deriving DecidableEq, Repr

/-- A result in flight (R86, Table 6-6): it lands at the end of S-beat `due` − 1 in the bits `bits`. `unit` 0 S-slot, 1 V-slot,
2 L-slot. -/
structure Flight where
  unit    : BitVec 2
  target  : Target
  reg     : BitVec 4
  exec    : Nat
  due     : Nat
  value   : W128
  bits    : W128
  part    : Bool
  pair    : Bool
  aux     : W128
  op      : BitVec 7
  ty      : BitVec 3
  poison  : Bool
  sat     : Nat
  nan     : Nat
  deriving DecidableEq, Repr

/-- Numeric state (Table 5-7) and vector counters (Table 6-6). -/
structure NumState where
  satCount   : W32 := 0
  t2Invalid  : W16 := 0
  nanNarrow  : W16 := 0
  mscaleRange : W16 := 0
  scaleNan   : W16 := 0
  satLimit   : W32 := 0
  rescale    : Bool := false
  amaxCfg    : W32 := 0
  amaxValue  : Sparse W32 := []
  amaxNan    : BitVec 4 := 0
  cursors    : Sparse (BitVec 7) := []
  srState    : Sparse W64 := []
  emptyRow   : W16 := 0
  below      : Byte := 0
  above      : Byte := 0
  pdesc      : Sparse W32 := []
  picot      : Sparse Byte := []
  deriving DecidableEq, Repr

/-- A drain-buffer word (R203). -/
structure DrainWord where
  data   : W64
  stream : BitVec 4
  seq    : W16
  poison : Bool
  deriving DecidableEq, Repr

structure DrainState where
  buf  : List DrainWord := []
  seq  : Sparse W16 := []
  lost : W32 := 0
  deriving DecidableEq, Repr

/-- A K-slot wait or lock that has not ended, or a take or unlock through a handle whose reply is awaited (R210, R240).
`resend`: the W-beat in which the request is sent again after a not-met reply (R234). -/
structure KWait where
  op        : BitVec 3
  viaHandle : Bool
  k         : BitVec 3
  n         : Byte
  handle    : W64
  resend    : Option Nat
  deriving DecidableEq, Repr

/-- Requests of a tile to the hold (R208) other than pending pushes: gates that found their entry not valid, knot waits, and
whether the drain buffer held 8 words or more after the last W-beat. -/
structure TileHold where
  gates : List (BitVec 4) := []
  waits : List KWait := []
  drain : Bool := false
  deriving DecidableEq, Repr

/-- A slot access made in the beat in progress: bank, slot as the fault record numbers it, and S-beat of execution (R89). -/
structure BankAccess where
  bank : BitVec 4
  slot : BitVec 3
  exec : Nat
  deriving DecidableEq, Repr

/-- What a tile drives on its outputs in the beat after one it executed (R58, R59, R108). -/
structure TileOut where
  word : Option W128 := none
  east : Pz 64 := {}
  south : Pz 64 := {}
  psum : Pz 32 := {}
  deriving DecidableEq, Repr

/-- A scoreboard change made by the L-slot of the word in progress, seen from the next beat on (Table 3-11). -/
inductive BoardOp
  | arm (entry : BitVec 4) (e : ScoreEntry)
  | release (entry : BitVec 4)
  | flip (entry : BitVec 4)
  deriving DecidableEq, Repr

/-- The beat in progress. -/
structure BeatState where
  acc      : List BankAccess := []
  windows  : BitVec 10 := 0
  /-- Entries named by an arm or a release of this word (R53). -/
  named    : List (BitVec 4) := []
  ptrOps   : List PtrOp := []
  boardOps : List BoardOp := []
  word     : W128 := 0
  isHead   : Bool := false
  loopEnd  : Bool := false
  loopBack : Bool := false
  branched : Bool := false
  /-- A branch was executed in this beat. -/
  branch   : Bool := false
  /-- A word already issued in this beat by a command of its own, as driven on. -/
  pre      : Option W128 := none
  /-- Bank of the landing of this beat (R66). -/
  landBank : Option (BitVec 4) := none
  /-- The beat is a delay slot; the head issued in it. -/
  inDelay  : Bool := false
  issued   : Bool := false
  idle     : Bool := false
  gates    : List (BitVec 4) := []
  out      : TileOut := {}
  /-- Which of the two words before this one carried a branch (Table 3-17). -/
  brHist1  : Bool := false
  brHist2  : Bool := false
  deriving DecidableEq, Repr

/-- A bank read through the window that waits for a free beat (R66). -/
structure WindowRead where
  by_    : Requester
  /-- The tag of a shuttle's request. -/
  tag    : Option Nat
  offset : BitVec 14
  size   : Nat
  since  : Nat
  /-- What it returns, once it has been served; empty when it timed out. -/
  data   : Option Bytes
  deriving DecidableEq, Repr

structure TileCounts where
  landed   : W32 := 0
  deferred : W32 := 0
  refused  : W16 := 0
  timeouts : W16 := 0
  heldLand : W32 := 0
  deriving DecidableEq, Repr

/-- One tile. -/
structure Tile where
  repaired : Bool := false
  banks    : Sparse (Pz 64) := []
  board    : Sparse ScoreEntry := []
  land     : List LandWord := []
  knots    : Sparse Knot := []
  s        : Sparse (Pz 32) := []
  p        : Sparse Ptr := []
  v        : Sparse (Pz 128) := []
  m        : Sparse (Pz 16) := []
  h        : Sparse W64 := []
  issue    : IssueState := {}
  mode     : ModeState := {}
  push     : PushState := {}
  fault    : FaultRec := {}
  trace    : Sparse W16 := []
  hoop     : HoopState := {}
  arr      : ArrayState := {}
  flights  : List Flight := []
  num      : NumState := {}
  drain    : DrainState := {}
  outQ     : List OutWord := []
  openMsg  : W64 := 0
  hold     : TileHold := {}
  beat     : BeatState := {}
  outHist  : List TileOut := []
  reads    : List WindowRead := []
  counts   : TileCounts := {}
  deriving DecidableEq, Repr

end Sys2Proof.Machine
end

