-- ==== Sys2Proof/Machine/UnitState.lean ====
section
/-! DEFINITION. The state of stream engine sides, HBM, shuttles, messages under way, and the hold of a partition (07, 08). -/

namespace Sys2Proof.Machine

/-! ## Stream engine sides (07) -/

/-- A word on the delivery track of a lane (Table 2-4). `steps`: W-beats since the side placed it; it leaves the segment at 4
and reaches lane stop k at k + 5 (R200). `stop`: the lane stop of its tile. -/
structure TrackWord where
  steps  : Nat
  stop   : Nat
  /-- Descriptor slot it belongs to, or none for a lacework function's word. -/
  slot   : Option Nat
  col    : Byte
  entry  : BitVec 4
  offset : BitVec 7
  data   : W64
  poison : Bool
  deriving DecidableEq, Repr

/-- A word on the drain track (Tables 7-6 and 8-5). `left`: W-beats until it reaches the side. -/
structure DrainTrackWord where
  left   : Nat
  col    : Byte
  x      : BitVec 10
  y      : BitVec 10
  data   : W64
  poison : Bool
  msg    : Bool
  stream : BitVec 4
  seq    : W16
  first  : Bool
  last   : Bool
  knot   : Bool
  /-- Emitted by a lacework function (R329, R330). -/
  emitted : Bool
  deriving DecidableEq, Repr

/-- One lane of a side. `toGrid` and `toSide` are the output queues of lacework functions (R329). -/
structure Lane where
  deliver : List TrackWord := []
  drain   : List DrainTrackWord := []
  toGrid  : List TrackWord := []
  toSide  : List DrainTrackWord := []
  /-- The arrived drain word found no drain that claims it (R194). -/
  stopped : Bool := false
  deriving DecidableEq, Repr

/-- An occupied descriptor slot (R190, R197). `ready`: words read and not yet placed; `sent`: words placed, in loop order;
`written`: bits or words done of a drain or copy; `finished`: the status it ends with while it waits for ring room or has just
ended. -/
structure DescSlot where
  active    : Bool := false
  w0        : W64 := 0
  w1        : W64 := 0
  w2        : W64 := 0
  w3        : W64 := 0
  ready     : Sparse (Pz 64) := []
  sent      : Nat := 0
  leftSeg   : Nat := 0
  written   : Sparse Bool := []
  moved     : W32 := 0
  poisoned  : W32 := 0
  finished  : Option Byte := none
  /-- Words that have entered a lacework function, and the W-beat of the last (R330). -/
  entered   : Nat := 0
  lastAt    : Nat := 0
  deriving DecidableEq, Repr

/-- A light-path slot (Table 7-8, R198). -/
structure LightSlot where
  active : Bool := false
  offset : BitVec 48 := 0
  size   : BitVec 3 := 0
  write  : Bool := false
  thread : BitVec 12 := 0
  tag    : BitVec 6 := 0
  deriving DecidableEq, Repr

/-- What reaches a side for acceptance, in order (R191). -/
inductive SideInput
  | desc (w0 w1 w2 w3 : W64) (shuttle : BitVec 8) (tag : BitVec 6)
  | trigger (value : W64)
  deriving DecidableEq, Repr

/-- A word waiting in the write buffer of a side (R204), with the slot of the drain that claimed it. -/
structure BufferedWrite where
  slot   : Nat
  index  : Nat
  offset : Nat
  data   : W64
  poison : Bool
  x      : BitVec 10
  y      : BitVec 10
  stream : BitVec 4
  seq    : W16
  deriving DecidableEq, Repr

/-- Entry of a sender table (R244). -/
structure Sender where
  handle : W64 := 0
  acked  : W32 := 0
  deriving DecidableEq, Repr

/-- A message in a forwarder (R239): from tile (x, y), complete or still being assembled; `sent`: it is on its way to a home that has
not answered; `retryAt`: when a refused one is sent again, in ns. -/
structure FwdMsg where
  x        : BitVec 10
  y        : BitVec 10
  words    : List OutWord
  complete : Bool
  sent     : Bool := false
  retryAt  : Option Nat := none
  deriving DecidableEq, Repr

/-- One side of a stream engine. -/
structure Side where
  templates   : Sparse W64 := []
  notify      : Sparse W64 := []
  lastTrigger : W64 := 0
  /-- Accepted submissions and triggers, in the order they reached the side; triggers among them are the trigger queue. -/
  inbox       : List SideInput := []
  /-- Writes of `trigger` that found the queue full (R191). -/
  stalled     : List W64 := []
  cqLog2      : BitVec 4 := 0
  cqBase      : BitVec 48 := 0
  cqHead      : BitVec 12 := 0
  cqTail      : BitVec 12 := 0
  lap         : Bool := false
  slots       : Sparse DescSlot := []
  light       : Sparse LightSlot := []
  writes      : List BufferedWrite := []
  completions : W32 := 0
  lanes       : Sparse Lane := []
  fwd         : List FwdMsg := []
  senders     : Sparse Sender := []
  /-- Changes of `msg_stop`, newest first: W-beat and value (R239). -/
  msgStop     : List (Nat × Bool) := []
  deriving DecidableEq, Repr

/-! ## HBM (R187, R188) -/

/-- The HBM range of a global quadrant: bytes and sector marks by offset within the range. `epoch`: the free value under which
a byte not written since the last key change reads. `errors`: what the sector code makes of a read of a sector whose stored bits have
changed (R188). -/
structure HbmQuad where
  bytes    : Sparse Byte := []
  poison   : Sparse Bool := []
  errors   : Sparse SectorOutcome := []
  epoch    : Option Nat := none
  deriving DecidableEq, Repr

/-- Counters of a stack (Table 7-10). -/
structure HbmDie where
  corrected   : W64 := 0
  uncorrected : W64 := 0
  refreshes   : Nat := 0
  deriving DecidableEq, Repr

structure QuadCounts where
  completions : W64 := 0
  poisoned    : W64 := 0
  drainLost   : W32 := 0
  /-- Commit sum of the step in progress (R445). -/
  commitSum   : W64 := 0
  deriving DecidableEq, Repr

/-! ## Shuttles (08) -/

/-- What a parked thread, or a request in flight, will do when its completion returns. -/
inductive ReqKind
  | load (rd : BitVec 5) (fp sgn : Bool)
  | store (data : Bytes) (poison : Bool)
  | get (loc : BitVec 18)
  | put (data : Bytes) (poison : Bool)
  | fetch
  | knot (rd : BitVec 5) (op : BitVec 3) (n : W16) (first : Bool)
  | channel (rd : BitVec 5)
  | desc (rd : BitVec 5)
  deriving DecidableEq, Repr

/-- A request tag (Table 8-9). `last`: the status its last completion returned; `light`: it uses a light-path slot; `sent`:
the request has left, rather than waiting for a slot (R198); `resend`: when a knot request is sent again, in ns. -/
structure Tag where
  valid   : Bool := false
  thread  : BitVec 4 := 0
  size    : BitVec 3 := 0
  address : W64 := 0
  kind    : Option ReqKind := none
  last    : Byte := 0
  light   : Bool := false
  sent    : Bool := false
  reply   : Option Byte := none
  /-- What the request carries or has returned, and its poison. -/
  data    : Bytes := []
  poison  : Bool := false
  resend  : Option Nat := none
  /-- Place in the order of issue among the shuttle's requests (R225). -/
  order   : Nat := 0
  deriving DecidableEq, Repr

/-- What a thread waits for besides its tags. `ownKnot`: a wait or lock of package thread `u` on a knot of its own shuttle (R234). -/
inductive Waiting
  | none
  | tag (t : BitVec 6) (rd : Option (BitVec 5))
  | fence
  | ownKnot (rd : BitVec 5) (knot : Byte) (op : BitVec 3) (n : W16) (u : BitVec 12)
  deriving DecidableEq, Repr

/-- A hardware thread (R221, Table 8-2a). Control and status registers by RISC-V number. -/
structure Thread where
  x        : Sparse W64 := []
  f        : Sparse W64 := []
  xPoison  : Sparse Bool := []
  fPoison  : Sparse Bool := []
  pc       : W64 := 0
  state    : BitVec 3 := 5
  machine  : Bool := false
  switches : W32 := 0
  csr      : Sparse W64 := []
  reserved : Option Nat := none
  waiting  : Waiting := .none
  deriving DecidableEq, Repr

/-- Channel entry (Table 8-11). -/
structure Channel where
  base      : BitVec 18 := 0
  size      : BitVec 18 := 0
  maxMsg    : BitVec 17 := 0
  opened    : Bool := false
  notify    : Bool := false
  knot      : Byte := 0
  wrPos     : BitVec 18 := 0
  rdPos     : BitVec 18 := 0
  discarded : BitVec 28 := 0
  produced  : W32 := 0
  consumed  : W32 := 0
  refusals  : W32 := 0
  drift     : W32 := 0
  deriving DecidableEq, Repr

/-- Combining-queue entry (Table 8-11). Its slots stand in local memory at `base` (R247). -/
structure Queue where
  channel      : BitVec 6 := 0
  opened       : Bool := false
  widthM1      : BitVec 12 := 0
  contributors : W16 := 0
  slots        : Byte := 0
  base         : BitVec 18 := 0
  refusals     : W32 := 0
  deriving DecidableEq, Repr

structure Shuttle where
  mem      : Sparse Byte := []
  /-- Poison of each 64-bit word of local memory. -/
  poison   : Sparse Bool := []
  threads  : Sparse Thread := []
  running  : Option (BitVec 4) := none
  tags     : Sparse Tag := []
  knots    : Sparse Knot := []
  channels : Sparse Channel := []
  queues   : Sparse Queue := []
  senders  : Sparse Sender := []
  /-- Resident lines of the instruction cache, by line address. -/
  icache   : List Nat := []
  tagStalls : W32 := 0
  requests : W64 := 0
  deriving DecidableEq, Repr

/-! ## Messages under way -/

/-- Where a message comes from, for its reply and its acknowledgement. -/
inductive MsgFrom
  | tile (x y : BitVec 10) (handle : BitVec 3)
  | thread (shuttle : BitVec 8) (tag : BitVec 6)
  | remote (port : BitVec 4) (chip : W16) (thread : BitVec 12) (tag : BitVec 6)
  | service (p : BitVec 5)
  deriving DecidableEq, Repr

/-- A message between a sender and the home of a knot, channel or queue. -/
inductive NetMsg
  | knotOp (src : MsgFrom) (user : KnotUser) (target : W64) (op : BitVec 3) (n : W16) (first : Bool)
  | knotReply (dst : MsgFrom) (op : BitVec 3) (status : Byte) (met : Bool) (count gen : W16) (word : W64)
  /-- `kind`: sent as a channel message (0), as a contribution (1), or by a tile, as either (2). -/
  | data (src : MsgFrom) (target : W64) (payload : List (Pz 64)) (length : Nat) (kind : Nat)
  deriving DecidableEq, Repr

/-- Synchronisation counters of a partition (Table 8-12). -/
structure Sync where
  wallSignals : W32 := 0
  broken      : W32 := 0
  interval    : W32 := 256
  drift       : W32 := 0
  lastStep    : W64 := 0
  msgErrors   : W32 := 0
  deriving DecidableEq, Repr

/-! ## Hold (R206 to R212) -/

/-- The requests of one W-beat: whether any source requests, and of the first run the lowest code, tile and S-beat. -/
structure HoldReq where
  q     : Bool
  cause : Byte
  tile  : W32
  sBeat : Nat
  deriving DecidableEq, Repr

/-- The hold of a partition (Table 7-10). Counts are U64 in the dictionary. `hist`: requests of past W-beats, newest first;
`run`: held W-beats of the run in progress; `haltAt`: W-beat of the halt; `frozen`: the freeze has come; `stepRuns`: tiles
execute. -/
structure Hold where
  sBeat     : Nat := 0
  wBeat     : Nat := 0
  held      : Nat := 0
  hlat      : Byte := 0
  limit     : W32 := 0x1000000
  holds     : W32 := 0
  lastCause : Byte := 0
  lastTile  : W32 := 0
  lastSBeat : Nat := 0
  lastHeld  : Nat := 0
  hist      : List HoldReq := []
  run       : Nat := 0
  /-- Held W-beats that count toward the limit (R212, R435). -/
  counted   : Nat := 0
  inRun     : Bool := false
  haltAt    : Option Nat := none
  frozen    : Bool := false
  /-- The halt arose in a held W-beat: no W-beat executes any more (R211). -/
  noMore    : Bool := false
  stepRuns  : Bool := false
  /-- Requests of the sources outside the tiles: change point and debug hold (codes 6 and 7). -/
  change    : Bool := false
  debug     : Bool := false
  /-- W-beat in which the debug source raised its request. -/
  debugAt   : Nat := 0
  /-- S-beat count at which a replay freezes the partition for its next stamped input (R449). -/
  stampAt   : Option Nat := none
  deriving DecidableEq, Repr

end Sys2Proof.Machine
end

