-- ==== Sys2Proof/Machine/LaceState.lean ====
section
/-! DEFINITION. The state of the lacework segment of a quadrant (12). -/

namespace Sys2Proof.Machine

/-- An input slot of Table 12-4 with `valid` 1. `off`: `offset`, or `seq` of a drain word. -/
structure SlotIn where
  poison : Bool
  data   : W64
  fn     : Byte
  col    : Byte
  entry  : BitVec 4
  off    : W16
  deriving DecidableEq, Repr

/-- An output slot of Table 12-4. -/
structure SlotOut where
  poison : Bool
  data   : W64
  col    : Byte
  entry  : BitVec 4
  off    : W16
  deriving DecidableEq, Repr

/-- A segment. Cells and flip-flops by column × 128 + row; slots by direction × 256 + lane × 2 + slot, lane bits by direction ×
128 + lane, with direction 0 delivery and 1 drain. `inNow`: words of the window in progress. `outNow`: slots placed in this
window; `outNext`: slots read at its tick (R327), and likewise the hold bits (R329). `ticked`: W-beat of the last tick.
`bypassOnly`: its clear failed in P9. -/
structure LaceSeg where
  cells     : Sparse (BitVec 256) := []
  ff0       : Sparse Bool := []
  ff1       : Sparse Bool := []
  state     : BitVec 2 := 0
  ratio     : BitVec 3 := 0
  signed    : Bool := false
  header    : Bytes := []
  table     : Bytes := []
  digest    : Bytes := []
  refusal   : Bytes := []
  staged    : Bytes := []
  command   : Byte := 0
  fmaxKhz   : W32 := 0
  ctl       : W64 := 0
  capturePending : Bool := false
  captureValid : Bool := false
  captureWBeat : W64 := 0
  cap0      : Sparse Bool := []
  cap1      : Sparse Bool := []
  lost      : W16 := 0
  drops     : W16 := 0
  poisonLanes : W16 := 0
  wordsIn   : W32 := 0
  wordsOut  : W32 := 0
  sticky    : Sparse Bool := []
  inNow     : Sparse (Option SlotIn) := []
  outNow    : Sparse (Option SlotOut) := []
  outNext   : Sparse (Option SlotOut) := []
  holdNow   : Sparse Bool := []
  holdNext  : Sparse Bool := []
  ticked    : Option Nat := none
  bypassOnly : Bool := false
  deriving DecidableEq, Repr

end Sys2Proof.Machine
end

