-- ==== Sys2Proof/Machine/Sparse.lean ====
section
/-! DEFINITION. Named operations on stores by number, on byte strings and on bit fields. -/

namespace Sys2Proof.Machine

/-- The value at `k`, or the default `d` where the store lists none. -/
def sGet (d : α) (k : Nat) : Sparse α → α
  | [] => d
  | (a, v) :: r => if a = k then v else if k < a then d else sGet d k r

/-- The store without its leading entries at or below `k`. -/
def sDrop (k : Nat) : Sparse α → Sparse α
  | [] => []
  | (a, v) :: r => if a ≤ k then sDrop k r else (a, v) :: r

/-- The store with `v` at `k`; a value equal to the default is not listed. -/
def sPut [DecidableEq α] (d : α) (k : Nat) (v : α) : Sparse α → Sparse α
  | [] => if v = d then [] else [(k, v)]
  | (a, w) :: r =>
    if k < a then (if v = d then (a, w) :: r else (k, v) :: (a, w) :: r)
    else if k = a then (if v = d then sDrop k r else (k, v) :: sDrop k r)
    else (a, w) :: sPut d k v r

/-- Every key is at or above `n` and keys rise strictly; no entry is the default. -/
def sWfFrom [DecidableEq α] (d : α) (n : Nat) : Sparse α → Bool
  | [] => true
  | (a, v) :: r => decide (n ≤ a) && decide (v ≠ d) && sWfFrom d (a + 1) r

/-- The canonical form of a store. -/
def sWf [DecidableEq α] (d : α) (m : Sparse α) : Bool := sWfFrom d 0 m

def sUpd [DecidableEq α] (d : α) (k : Nat) (f : α → α) (m : Sparse α) : Sparse α := sPut d k (f (sGet d k m)) m

/-- Entries of a store mapped; an entry that becomes the default is not listed. -/
def sMap [DecidableEq β] (d : β) (f : α → β) : Sparse α → Sparse β
  | [] => []
  | (k, v) :: r => if f v = d then sMap d f r else (k, f v) :: sMap d f r

/-- All entries of a store at or above `lo` and below `hi` removed. -/
def sClear (lo hi : Nat) (m : Sparse α) : Sparse α := m.filter fun e => e.1 < lo || hi ≤ e.1

/-- The value applied at every number below `n` of a list. -/
def sPutAll [DecidableEq α] (d : α) (k : Nat) : List α → Sparse α → Sparse α
  | [], m => m
  | v :: r, m => sPutAll d (k + 1) r (sPut d k v m)

/-- Little-endian bytes of a number. -/
def leBytes : Nat → Nat → Bytes
  | 0, _ => []
  | n + 1, v => BitVec.ofNat 8 v :: leBytes n (v / 256)

/-- The number whose little-endian bytes these are. -/
def ofLe : Bytes → Nat
  | [] => 0
  | b :: r => b.toNat + 256 * ofLe r

/-- The number whose big-endian bytes these are. -/
def ofBe (bs : Bytes) : Nat := bs.foldl (fun a b => a * 256 + b.toNat) 0

def beBytes (n v : Nat) : Bytes := (leBytes n v).reverse

/-- Bits [hi:lo] of a number. -/
def bits (hi lo v : Nat) : Nat := v / 2 ^ lo % 2 ^ (hi + 1 - lo)

/-- Bit `i` of a number. -/
def bitAt (i v : Nat) : Bool := v / 2 ^ i % 2 == 1

def b2n (b : Bool) : Nat := if b then 1 else 0

/-- `n` bytes from a byte string at `off`, zero past its end. -/
def bytesAt (bs : Bytes) (off n : Nat) : Bytes :=
  let t := (bs.drop off).take n
  t ++ List.replicate (n - t.length) 0

/-- Saturating counters. -/
def satAdd (w : Nat) (x : BitVec w) (n : Nat) : BitVec w := BitVec.ofNat w (min (x.toNat + n) (2 ^ w - 1))

/-- Bytes `n` of memory from address `a`, unlisted bytes reading as `d`. -/
def readBytes (d : Byte) (m : Sparse Byte) (a : Nat) : Nat → Bytes
  | 0 => []
  | n + 1 => sGet d a m :: readBytes d m (a + 1) n

/-- A byte string written from address `a` on. -/
def writeBytes (d : Byte) (a : Nat) : Bytes → Sparse Byte → Sparse Byte
  | [], m => m
  | b :: r, m => writeBytes d (a + 1) r (sPut d a b m)

/-- The elements of a list with the `i`-th removed. -/
def dropAt : Nat → List α → List α
  | _, [] => []
  | 0, _ :: r => r
  | n + 1, a :: r => a :: dropAt n r

/-- The elements of a list with the `i`-th replaced. -/
def setAt (i : Nat) (v : α) (l : List α) : List α := l.set i v

end Sys2Proof.Machine
end

