-- ==== Sys2Proof/Machine/Operands.lean ====
section
/-! DEFINITION. A tile's registers, pointers and banks as its slots reach them (02, 03), and its fault record. -/

namespace Sys2Proof.Machine

/-- What one tile sees of the beat it executes: the partition's counts, its coordinate, and what its N and W neighbours drive
towards it in this beat (R58 to R60). -/
structure BeatCtx where
  sBeat : Nat
  wBeat : Nat
  x     : BitVec 10
  y     : BitVec 10
  north : TileOut := {}
  west  : TileOut := {}
  deriving DecidableEq, Repr

/-! ## Fault record (R102 to R104) -/

def tileIsHead (t : Tile) : Bool := !t.hoop.parked && t.hoop.source == 0

/-- A fault record of the tile as it stands (Table 3-17). `known` is false for a fault that a knot reply reports (R240). A
fault outside a beat has no word, so nothing of one is known (log 102). -/
def faultOf (c : BeatCtx) (t : Tile) (code : Nat) (slot : BitVec 3) (detail : Nat) (known : Bool) : FaultRec :=
  { code := BitVec.ofNat 8 code
    slot := slot
    valid := true
    branchPending := t.beat.brHist1 || t.beat.brHist2
    branchTaken := t.issue.brTaken
    modePending := t.mode.due.isSome
    loopEnd := known && t.beat.loopEnd
    loopBack := known && t.beat.loopBack
    addrValid := known && t.beat.isHead
    head := tileIsHead t
    wordAddr := if known && t.beat.isHead then t.issue.curAddr else 0
    issueOffset := t.hoop.offset
    modeAt := t.mode.cur
    later := 0
    sBeat := BitVec.ofNat 64 c.sBeat
    wBeat := BitVec.ofNat 64 c.wBeat
    headX := BitVec.ofNat 10 (bits 9 0 (sGet 0 t.hoop.index.toNat t.hoop.table).toNat)
    headY := BitVec.ofNat 10 (bits 25 16 (sGet 0 t.hoop.index.toNat t.hoop.table).toNat)
    detail := BitVec.ofNat 32 detail
    word := if known && slot != 7 then t.beat.word else 0 }

/-- R104: the first fault is recorded; among faults of one beat, the first in the order of the slots; every other counts. -/
def recordFault (r : FaultRec) (t : Tile) : Tile :=
  if !t.fault.valid then { t with fault := r }
  else if t.fault.wBeat == r.wBeat && r.slot < t.fault.slot then
    { t with fault := { r with later := satAdd 16 t.fault.later 1 } }
  else { t with fault := { t.fault with later := satAdd 16 t.fault.later 1 } }

def raise (c : BeatCtx) (code : Nat) (slot : BitVec 3) (detail : Nat) (t : Tile) : Tile :=
  recordFault (faultOf c t code slot detail true) t

/-- The bits of slot 1 to 6 in a stitch word (Table 3-1). -/
def slotField (slot : BitVec 3) (w : W128) : Nat :=
  match slot.toNat with
  | 1 => bits 123 100 w.toNat
  | 2 => bits 99 72 w.toNat
  | 3 => bits 71 52 w.toNat
  | 4 => bits 51 32 w.toNat
  | 5 => bits 31 16 w.toNat
  | 6 => bits 15 0 w.toNat
  | _ => bits 127 124 w.toNat

/-- R72: `illegal_op` with the slot field as detail. -/
def illegalOp (c : BeatCtx) (slot : BitVec 3) (t : Tile) : Tile := raise c 0x02 slot (slotField slot t.beat.word) t

/-- R216: `poison_commit` for the use of poisoned scalar register `r`. -/
def poisonCommit (c : BeatCtx) (p : Bool) (r : BitVec 4) (t : Tile) : Tile :=
  if p then raise c 0x14 1 (r.toNat * 2) t else t

/-! ## Registers (R74) -/

/-- A scalar register; s0 reads as zero. -/
def getS (t : Tile) (r : BitVec 4) : Pz 32 := if r = 0 then {} else sGet {} r.toNat t.s
def getP (t : Tile) (r : BitVec 3) : Ptr := sGet {} r.toNat t.p
def getV (t : Tile) (r : BitVec 3) : Pz 128 := sGet {} r.toNat t.v
def getM (t : Tile) (r : BitVec 2) : Pz 16 := sGet {} r.toNat t.m
def getH (t : Tile) (r : BitVec 3) : W64 := sGet 0 r.toNat t.h
def getEntry (t : Tile) (e : BitVec 4) : ScoreEntry := sGet {} e.toNat t.board
def putEntry (t : Tile) (e : BitVec 4) (v : ScoreEntry) : Tile := { t with board := sPut {} e.toNat v t.board }
def getKnot (t : Tile) (k : BitVec 3) : Knot := sGet {} k.toNat t.knots

/-- A result of the S-slot that is usable `lat` beats later (R86); a write to s0 is discarded. -/
def sResult (c : BeatCtx) (lat : Nat) (rd : BitVec 4) (v : W32) (poison : Bool) (t : Tile) : Tile :=
  if rd = 0 then t
  else { t with flights := t.flights ++ [{
    unit := 0, target := .scalar, reg := rd, exec := c.sBeat, due := c.sBeat + lat, value := v.setWidth 128,
    bits := BitVec.ofNat 128 (2 ^ 32 - 1), part := false, pair := false, aux := 0, op := 0, ty := 0,
    poison := poison, sat := 0, nan := 0 }] }

/-- A pointer as a 24-bit word (Table 3-15). -/
def ptrWord (p : Ptr) : W32 :=
  BitVec.ofNat 32 (p.bank.toNat + p.word.toNat * 2 ^ 8 + p.stride.toNat * 2 ^ 16)

def ptrOfWord (w : Nat) : Ptr :=
  ⟨BitVec.ofNat 4 (bits 3 0 w), BitVec.ofNat 7 (bits 14 8 w), BitVec.ofNat 8 (bits 23 16 w)⟩

/-- R75: an increment of pointer `r`, when asked for. -/
def incPtr (inc : Bool) (r : BitVec 3) (t : Tile) : Tile :=
  if inc then { t with beat := { t.beat with ptrOps := t.beat.ptrOps ++ [⟨r, none⟩] } } else t

def setPtr (r : BitVec 3) (p : Ptr) (t : Tile) : Tile :=
  { t with beat := { t.beat with ptrOps := t.beat.ptrOps ++ [⟨r, some p⟩] } }

/-- A pointer after one increment (R75). -/
def ptrStep (p : Ptr) : Ptr := { p with word := BitVec.ofInt 7 ((p.word.toNat : Int) + p.stride.toInt) }

/-! ## Banks (R38 to R42) -/

def bankKey (bank : BitVec 4) (word : BitVec 7) : Nat := bank.toNat * 128 + word.toNat

def getWord (t : Tile) (bank : BitVec 4) (word : BitVec 7) : Pz 64 := sGet {} (bankKey bank word) t.banks

def putWord (bank : BitVec 4) (word : BitVec 7) (v : Pz 64) (t : Tile) : Tile :=
  { t with banks := sPut {} (bankKey bank word) v t.banks }

/-- Banks 6 to 9 are reached by rows of two words (Table 2-2). -/
def isRowBank (bank : BitVec 4) : Bool := 6 ≤ bank.toNat

def evenWord (w : BitVec 7) : BitVec 7 := w &&& 0x7E

def activeBank (t : Tile) : BitVec 4 := if t.issue.half then 9 else 8

/-- The access of a slot to a bank (R39, R76, R89): whether it is made, with `active_half_access` or `bank_clash` raised.
`exec` is the S-beat in which the operation executed. -/
def slotAccess (c : BeatCtx) (slot : BitVec 3) (exec : Nat) (bank : BitVec 4) (t : Tile) : Tile × Bool :=
  if bank = activeBank t then (raise c 0x05 slot bank.toNat t, false)
  else
    let t1 := { t with beat := { t.beat with acc := t.beat.acc ++ [⟨bank, slot, exec⟩] } }
    match t.beat.acc.find? (fun a => a.bank == bank) with
    | none => (t1, true)
    | some o =>
      let here : Bool := o.exec < exec || (o.exec == exec && o.slot ≤ slot)
      let (own, oth) := if here then (BankAccess.mk bank slot exec, o) else (o, BankAccess.mk bank slot exec)
      (raise c 0x03 own.slot (bank.toNat + oth.slot.toNat * 2 ^ 4 + (c.sBeat - own.exec) % 256 * 2 ^ 8
        + (c.sBeat - oth.exec) % 256 * 2 ^ 16) t1, true)

/-- An armed entry, not valid, whose range meets words `w0` to `w0` + n − 1 of a bank (R46). -/
def ungatedEntry (t : Tile) (bank : BitVec 4) (w0 n : Nat) : Option Nat :=
  (List.range 16).find? fun i =>
    let e := sGet {} i t.board
    e.armed && !e.valid && e.bank == bank && e.base.toNat < w0 + n && w0 < e.base.toNat + e.length.toNat

/-- R46: `ungated_read`. -/
def checkGated (c : BeatCtx) (slot : BitVec 3) (bank : BitVec 4) (w0 n : Nat) (t : Tile) : Tile :=
  match ungatedEntry t bank w0 n with
  | some i => raise c 0x06 slot (bank.toNat + w0 * 2 ^ 4 + i * 2 ^ 12) t
  | none => t

/-- The bank of a pointer, or `bad_bank` (R75). -/
def ptrBank (c : BeatCtx) (slot : BitVec 3) (r : BitVec 3) (t : Tile) : Tile × Bool :=
  let p := getP t r
  if 10 ≤ p.bank.toNat then (raise c 0x04 slot (p.bank.toNat + r.toNat * 2 ^ 4) t, false) else (t, true)

/-- The contents a slot reads at a pointer: a word of W-mem or A-mem in the low half, or a row (R75, R80). -/
def contents (t : Tile) (bank : BitVec 4) (word : BitVec 7) : Pz 128 :=
  if isRowBank bank then
    let lo := getWord t bank (evenWord word)
    let hi := getWord t bank (evenWord word ||| 1)
    ⟨hi.data ++ lo.data, lo.poison || hi.poison⟩
  else
    let w := getWord t bank word
    ⟨w.data.setWidth 128, w.poison⟩

/-- A slot read through pointer `r`: zero where the access is not made. -/
def readPtr (c : BeatCtx) (slot : BitVec 3) (r : BitVec 3) (t : Tile) : Tile × Pz 128 :=
  let (t1, ok) := ptrBank c slot r t
  if !ok then (t1, {})
  else
    let p := getP t r
    let (t2, made) := slotAccess c slot c.sBeat p.bank t1
    if !made then (t2, {})
    else
      let (w0, n) := if isRowBank p.bank then ((evenWord p.word).toNat, 2) else (p.word.toNat, 1)
      (checkGated c slot p.bank w0 n t2, contents t2 p.bank p.word)

/-- The word that an M-slot operand read through pointer `r` takes: bits [63:0] of a row (R75, R81). -/
def readPtrWord (c : BeatCtx) (slot : BitVec 3) (r : BitVec 3) (t : Tile) : Tile × Pz 64 :=
  let (t1, _) := readPtr c slot r t
  let p := getP t r
  let made := p.bank.toNat < 10 && p.bank != activeBank t
  if !made then (t1, {})
  else (t1, getWord t p.bank (if isRowBank p.bank then evenWord p.word else p.word))

/-- A 32-bit half of a 64-bit word. -/
def halfOf (h : BitVec 1) (w : W64) : W32 := if h = 0 then w.setWidth 32 else (w >>> 32).setWidth 32

def withHalf (h : BitVec 1) (v : W32) (w : W64) : W64 :=
  if h = 0 then (w >>> 32).setWidth 32 ++ v else v ++ w.setWidth 32

/-! ## The S-slot's own bank accesses (R75, R78) -/

/-- `sld` and `sldp` after the bank is known. -/
def loadHalf (c : BeatCtx) (rd : BitVec 4) (bank : BitVec 4) (word : BitVec 7) (h : BitVec 1) (t : Tile) : Tile :=
  let (t1, made) := slotAccess c 1 c.sBeat bank t
  if !made then sResult c 2 rd 0 false t1
  else
    let w := getWord t1 bank word
    sResult c 2 rd (halfOf h w.data) w.poison (checkGated c 1 bank word.toNat 1 t1)

/-- `sst` and `sstp` after the bank is known (R215). -/
def storeHalf (c : BeatCtx) (rs : BitVec 4) (bank : BitVec 4) (word : BitVec 7) (h : BitVec 1) (t : Tile) : Tile :=
  let (t1, made) := slotAccess c 1 c.sBeat bank t
  if !made then t1
  else
    let w := getWord t1 bank word
    let v := getS t rs
    putWord bank word ⟨withHalf h v.data w.data, w.poison || v.poison⟩ t1

/-! ## The outbound queue and pushes (R85, R237) -/

/-- Words offered to the outbound queue of 16 words: accepted whole, or not. -/
def queueRoom (t : Tile) (ws : List OutWord) : Bool := t.outQ.length + ws.length ≤ 16

/-- An S-slot push. -/
def offerS (c : BeatCtx) (handle : BitVec 3) (value : W64) (ws : List OutWord) (t : Tile) : Tile :=
  if !t.push.sWords.isEmpty then raise c 0x10 1 (handle.toNat * 2) t
  else if t.push.kWords.isEmpty && queueRoom t ws then { t with outQ := t.outQ ++ ws }
  else { t with push := { t.push with
    sWords := ws, sHandle := handle, sValue := value, kOlder := !t.push.kWords.isEmpty
    pushHolds := satAdd 16 t.push.pushHolds 1 } }

/-- A K-slot push: a `cpush` or a knot operation through a handle. -/
def offerK (c : BeatCtx) (handle : BitVec 3) (value : W64) (ws : List OutWord) (t : Tile) : Tile :=
  if !t.push.kWords.isEmpty then raise c 0x10 6 (1 + handle.toNat * 2) t
  else if t.push.sWords.isEmpty && queueRoom t ws then { t with outQ := t.outQ ++ ws }
  else { t with push := { t.push with
    kWords := ws, kHandle := handle, kValue := value, kOlder := false
    pushHolds := satAdd 16 t.push.pushHolds 1 } }

/-- One retry of the pending pushes in a held W-beat, the older first (R85). -/
def retryPushes (t : Tile) : Tile :=
  let goS (t : Tile) : Tile :=
    if !t.push.sWords.isEmpty && queueRoom t t.push.sWords then
      { t with outQ := t.outQ ++ t.push.sWords, push := { t.push with sWords := [] } } else t
  let goK (t : Tile) : Tile :=
    if !t.push.kWords.isEmpty && queueRoom t t.push.kWords then
      { t with outQ := t.outQ ++ t.push.kWords, push := { t.push with kWords := [] } } else t
  if t.push.kOlder then
    let t1 := goK t
    if t1.push.kWords.isEmpty then goS t1 else t1
  else
    let t1 := goS t
    if t1.push.sWords.isEmpty then goK t1 else t1

end Sys2Proof.Machine
end

