-- ==== Sys2Proof/Machine/Flags.lean ====
section
/-! DEFINITION. The counts, sentinels and captures of a tile's arithmetic (05 R161 to R164, 06 R178 to R183). -/

namespace Sys2Proof.Machine

/-- R161: `n` clipped elements. The rescale event of R162 is raised when the count reaches a nonzero limit. -/
def countSat (n : Nat) (t : Tile) : Tile :=
  let sc := t.num.satCount + BitVec.ofNat 32 n
  let reached := t.num.satLimit ≠ 0 && t.num.satLimit.toNat ≤ sc.toNat
  { t with num := { t.num with satCount := sc, rescale := t.num.rescale || (n ≠ 0 && reached) } }

/-- R141: T2 codes 0b10 count in `t2_invalid` and in `sat_count`, in the beat of the read. -/
def countT2 (n : Nat) (t : Tile) : Tile :=
  countSat n { t with num := { t.num with t2Invalid := satAdd 16 t.num.t2Invalid n } }

def countNanNarrow (n : Nat) (t : Tile) : Tile :=
  { t with num := { t.num with nanNarrow := satAdd 16 t.num.nanNarrow n } }

/-- R146. -/
def countScale (range_ nan : Nat) (t : Tile) : Tile :=
  { t with num := { t.num with
    mscaleRange := satAdd 16 t.num.mscaleRange range_, scaleNan := satAdd 16 t.num.scaleNan nan } }

/-- R179, R180. -/
def countPicot (below above empty : Nat) (t : Tile) : Tile :=
  { t with num := { t.num with
    below := satAdd 8 t.num.below below, above := satAdd 8 t.num.above above
    emptyRow := satAdd 16 t.num.emptyRow empty } }

/-- One element of a drained value captured by an amax register (R163): magnitude codes of FP32 order as numbers. -/
def amaxElement (k : Nat) (code : Nat) (t : Tile) : Tile :=
  let mag := code % 2 ^ 31
  if mag > 0x7F800000 then { t with num := { t.num with amaxNan := t.num.amaxNan ||| BitVec.ofNat 4 (2 ^ k) } }
  else if mag > (sGet 0 k t.num.amaxValue).toNat then
    { t with num := { t.num with amaxValue := sPut 0 k (BitVec.ofNat 32 mag) t.num.amaxValue } }
  else t

/-- R163: `n` 64-bit words of `v` drained into a stream. BF16 elements widen exactly to FP32. -/
def amaxCapture (stream : BitVec 4) (words : Nat) (v : W128) (t : Tile) : Tile :=
  (List.range 4).foldl (fun t k =>
    let cfg := bits (8 * k + 7) (8 * k) t.num.amaxCfg.toNat
    if cfg % 16 ≠ stream.toNat then t
    else match cfg / 16 % 4 with
      | 1 => (List.range (2 * words)).foldl (fun t i => amaxElement k (element 32 i v.toNat) t) t
      | 2 => (List.range (4 * words)).foldl (fun t i => amaxElement k (element 16 i v.toNat * 2 ^ 16) t) t
      | _ => t) t

/-! ## Stochastic draws (R155 to R157) -/

def mix64 (z : W64) : W64 :=
  let z := z + 0x9E3779B97F4A7C15
  let z := (z ^^^ (z >>> 30)) * 0xBF58476D1CE4E5B9
  let z := (z ^^^ (z >>> 27)) * 0x94D049BB133111EB
  z ^^^ (z >>> 31)

/-- Seed of generator l of tile (x, y) (R157). -/
def seedOf (partSeed counter : W64) (l : Nat) (x y : BitVec 10) : W64 :=
  let z := mix64 (partSeed ^^^ counter)
  let z := mix64 (z ^^^ BitVec.ofNat 64 (l * 2 ^ 20 + y.toNat * 2 ^ 10 + x.toNat))
  if z = 0 then 1 else z

def srStep (s : W64) : W64 :=
  let s := s ^^^ (s <<< 13)
  let s := s ^^^ (s >>> 7)
  s ^^^ (s <<< 17)

/-- The draw of k bits that a generator gives after its step. -/
def srDraw (k : Nat) (s : W64) : Nat := ((s * 0x2545F4914F6CDD1D) >>> (64 - k)).toNat

def getSr (t : Tile) (l : Nat) : W64 := sGet 0 l t.num.srState

/-- One step of all eight generators (R156). -/
def stepSr (t : Tile) : Tile :=
  { t with num := { t.num with srState := (List.range 8).foldl (fun m l => sUpd 0 l srStep m) t.num.srState } }

/-- R164, R183: what the first S-beat of a step sets in the numeric state. -/
def stepNum (partSeed counter : W64) (x y : BitVec 10) (n : NumState) : NumState :=
  { n with satCount := 0, rescale := false, amaxValue := [], amaxNan := 0, cursors := []
           emptyRow := 0, below := 0, above := 0
           srState := (List.range 8).foldl (fun m l => sPut 0 l (seedOf partSeed counter l x y) m) [] }

end Sys2Proof.Machine
end

