-- ==== Sys2Proof/Machine/ScalarSlot.lean ====
section
/-! DEFINITION. The S-slot (03, Table 3-4): what each operation does in a tile in its execution beat. -/

namespace Sys2Proof.Machine

/-- Register-register arithmetic of opcodes 0x01 to 0x0B. -/
def aluRR (op : Nat) (a b : W32) : W32 :=
  match op with
  | 0x01 => a + b
  | 0x02 => a - b
  | 0x03 => a &&& b
  | 0x04 => a ||| b
  | 0x05 => a ^^^ b
  | 0x06 => a <<< (b.toNat % 32)
  | 0x07 => a >>> (b.toNat % 32)
  | 0x08 => a.sshiftRight (b.toNat % 32)
  | 0x09 => if a.slt b then 1 else 0
  | 0x0A => if a.ult b then 1 else 0
  | _ => a * b

def sRR (c : BeatCtx) (op : Nat) (f : SRR) (t : Tile) : Tile :=
  let a := getS t f.ra
  let b := getS t f.rb
  sResult c (if op = 0x0B then 2 else 1) f.rd (aluRR op a.data b.data) (a.poison || b.poison) t

/-- Register-immediate arithmetic of opcodes 0x10 to 0x12. -/
def aluRI (op : Nat) (a : W32) (imm : BitVec 10) : W32 :=
  match op with
  | 0x10 => a + imm.signExtend 32
  | 0x11 => a &&& imm.setWidth 32
  | _ => a ||| imm.setWidth 32

def sRI (c : BeatCtx) (op : Nat) (f : SRI) (t : Tile) : Tile :=
  let a := getS t f.ra
  sResult c 1 f.rd (aluRI op a.data f.imm) a.poison t

def sLi (c : BeatCtx) (rd : BitVec 4) (imm : BitVec 14) (t : Tile) : Tile := sResult c 1 rd (imm.signExtend 32) false t
def sLui (c : BeatCtx) (rd : BitVec 4) (imm : BitVec 14) (t : Tile) : Tile :=
  sResult c 1 rd (imm.setWidth 32 <<< 18) false t

/-- A `bank` field that names no bank (R75). -/
def badBankField (c : BeatCtx) (bank : BitVec 4) (t : Tile) : Tile := raise c 0x04 1 (bank.toNat + 2 ^ 7) t

def sSld (c : BeatCtx) (f : SMem) (t : Tile) : Tile :=
  if 10 ≤ f.bank.toNat then sResult c 2 f.r 0 false (badBankField c f.bank t) else loadHalf c f.r f.bank f.word f.half t

def sSst (c : BeatCtx) (f : SMem) (t : Tile) : Tile :=
  if 10 ≤ f.bank.toNat then badBankField c f.bank t else storeHalf c f.r f.bank f.word f.half t

def sSldp (c : BeatCtx) (f : SPtr) (t : Tile) : Tile :=
  let (t1, ok) := ptrBank c 1 f.ptr t
  let p := getP t f.ptr
  incPtr f.inc f.ptr (if ok then loadHalf c f.r p.bank p.word f.half t1 else sResult c 2 f.r 0 false t1)

def sSstp (c : BeatCtx) (f : SPtr) (t : Tile) : Tile :=
  let (t1, ok) := ptrBank c 1 f.ptr t
  let p := getP t f.ptr
  incPtr f.inc f.ptr (if ok then storeHalf c f.r p.bank p.word f.half t1 else t1)

def sSetp (r : BitVec 3) (bank : BitVec 4) (word : BitVec 7) (t : Tile) : Tile :=
  setPtr r { getP t r with bank := bank, word := word } t

def sSetps (r : BitVec 3) (stride : BitVec 8) (t : Tile) : Tile := setPtr r { getP t r with stride := stride } t

def sSetpr (c : BeatCtx) (r : BitVec 3) (ra : BitVec 4) (t : Tile) : Tile :=
  let a := getS t ra
  setPtr r (ptrOfWord a.data.toNat) (poisonCommit c a.poison ra t)

def sGetp (c : BeatCtx) (rd : BitVec 4) (r : BitVec 3) (t : Tile) : Tile := sResult c 1 rd (ptrWord (getP t r)) false t

def sRdsb (c : BeatCtx) (rd : BitVec 4) (t : Tile) : Tile := sResult c 1 rd (BitVec.ofNat 32 c.sBeat) false t

/-! ## Control operations (R73, R91 to R99) -/

/-- R73, R92: a control operation acts only in the head tile, and raises `delay_slot_control` in a delay slot. -/
def control (c : BeatCtx) (f : Tile → Tile) (t : Tile) : Tile :=
  if !t.beat.isHead then t
  else if t.issue.delayLeft ≠ 0 && !t.beat.branch then raise c 0x0B 1 t.issue.brAddr.toNat t
  else f t

def curIndex (t : Tile) : BitVec 6 := t.issue.curAddr.setWidth 6

/-- R98: `loop_branch` for a branch at one of the last three words of an active loop. -/
def checkLoopBranch (c : BeatCtx) (t : Tile) : Tile :=
  let bad (l : LoopLevel) : Bool := l.active && (curIndex t).toNat ≤ l.stop.toNat && l.stop.toNat ≤ (curIndex t).toNat + 2
  if bad t.issue.loop0 then raise c 0x0C 1 t.issue.loop0.stop.toNat t
  else if bad t.issue.loop1 then raise c 0x0C 1 t.issue.loop1.stop.toNat t
  else t

/-- R91: a branch with two delay slots to come. -/
def branchTo (c : BeatCtx) (taken : Bool) (target : BitVec 6) (swap : Bool) (t : Tile) : Tile :=
  let t := checkLoopBranch c t
  { t with issue := { t.issue with
             delayLeft := 2, brTaken := taken, brTarget := target, brSwap := swap, brAddr := t.issue.curAddr }
           beat := { t.beat with branched := taken, branch := true } }

def sJmp (c : BeatCtx) (target : BitVec 6) (t : Tile) : Tile := control c (branchTo c true target false) t

def sBz (c : BeatCtx) (want : Bool) (ra : BitVec 4) (target : BitVec 6) (t : Tile) : Tile :=
  control c (fun t =>
    let a := getS t ra
    branchTo c ((a.data == 0) == want) target false (poisonCommit c a.poison ra t)) t

def sJr (c : BeatCtx) (ra : BitVec 4) (t : Tile) : Tile :=
  control c (fun t =>
    let a := getS t ra
    branchTo c true (a.data.setWidth 6) false (poisonCommit c a.poison ra t)) t

def sSwap (c : BeatCtx) (target : BitVec 6) (t : Tile) : Tile := control c (branchTo c true target true) t

/-- R95, R97. -/
def sLoop (c : BeatCtx) (f : SLoop) (t : Tile) : Tile :=
  control c (fun t =>
    let r : BitVec 4 := f.count.setWidth 4
    let a := getS t r
    let t := if f.fromReg then poisonCommit c a.poison r t else t
    let count : Nat := if f.fromReg then a.data.toNat else if f.count = 0 then 1024 else f.count.toNat
    let i := t.issue
    let named := if f.level = 0 then i.loop0 else i.loop1
    let other := if f.level = 0 then i.loop1 else i.loop0
    if named.active || (other.active && other.stop.toNat < f.stop.toNat) || f.stop.toNat < (curIndex t).toNat + 1 then
      raise c 0x0D 1 f.level.toNat t
    else if f.fromReg && count = 0 then raise c 0x0E 1 f.level.toNat t
    else
      let l : LoopLevel := ⟨BitVec.ofNat 32 count, curIndex t + 1, f.stop, true⟩
      { t with issue :=
        if f.level = 0 then { i with loop0 := l, oneInner := false } else { i with loop1 := l, oneInner := true } }) t

/-! ## Format mode, pushes and the hoop -/

def modeLegal (m : Mode) : Bool := m.mfmt.toNat ≤ 5 && 4 ≤ m.srBits.toNat && m.srBits.toNat ≤ 16

/-- R94. -/
def sMode (c : BeatCtx) (m : Mode) (t : Tile) : Tile :=
  if !modeLegal m then illegalOp c 1 t
  else if t.mode.due.isSome then raise c 0x0F 1 0 t
  else { t with mode := { t.mode with pend := m, due := some (c.sBeat + 3) } }

def modeOfBits (v : Nat) : Mode :=
  ⟨BitVec.ofNat 3 (bits 13 11 v), BitVec.ofNat 2 (bits 10 9 v), BitVec.ofNat 5 (bits 8 4 v)⟩

def sModer (c : BeatCtx) (ra : BitVec 4) (t : Tile) : Tile :=
  let a := getS t ra
  sMode c (modeOfBits a.data.toNat) (poisonCommit c a.poison ra t)

/-- R77, R85, R237: the handle word and the value. -/
def sPush (c : BeatCtx) (handle : BitVec 3) (ra rb : BitVec 4) (t : Tile) : Tile :=
  let h := getH t handle
  if h = 0 then t
  else
    let a := getS t ra
    let b := getS t rb
    let t := if a.poison then poisonCommit c true ra t else poisonCommit c b.poison rb t
    let v : W64 := b.data ++ a.data
    offerS c handle v [⟨h, true, false, false, false⟩, ⟨v, false, true, false, a.poison || b.poison⟩] t

/-- R111: the selected entry becomes current from the next beat. -/
def sHoop (c : BeatCtx) (ra : BitVec 4) (t : Tile) : Tile :=
  let a := getS t ra
  let t := poisonCommit c a.poison ra t
  { t with hoop := { t.hoop with next := some (a.data.setWidth 3) } }

/-! ## The slot as bits (Table 3-4) -/

/-- Fields that a decoded operation reads as reserved must be zero (R72). -/
def sSlot (c : BeatCtx) (w : Nat) (t : Tile) : Tile :=
  let rd := BitVec.ofNat 4 (bits 17 14 w)
  let ra := BitVec.ofNat 4 (bits 13 10 w)
  let rb := BitVec.ofNat 4 (bits 9 6 w)
  let imm10 := BitVec.ofNat 10 (bits 9 0 w)
  let imm14 := BitVec.ofNat 14 (bits 13 0 w)
  let pHi := BitVec.ofNat 3 (bits 17 15 w)
  let pMid := BitVec.ofNat 3 (bits 13 11 w)
  let target := BitVec.ofNat 6 (bits 5 0 w)
  let guard (ok : Bool) (f : Tile → Tile) : Tile := if ok then f t else illegalOp c 1 t
  let z (hi lo : Nat) : Bool := bits hi lo w == 0
  let op := bits 23 18 w
  if op = 0 then guard (z 17 0) id
  else if op ≤ 0x0B then guard (z 5 0) (sRR c op ⟨rd, ra, rb⟩)
  else match op with
  | 0x10 => sRI c 0x10 ⟨rd, ra, imm10⟩ t
  | 0x11 => sRI c 0x11 ⟨rd, ra, imm10⟩ t
  | 0x12 => sRI c 0x12 ⟨rd, ra, imm10⟩ t
  | 0x13 => sLi c rd imm14 t
  | 0x14 => sLui c rd imm14 t
  | 0x18 => guard (z 1 0) (sSld c ⟨rd, ra, BitVec.ofNat 7 (bits 9 3 w), BitVec.ofNat 1 (bits 2 2 w)⟩)
  | 0x19 => guard (z 1 0) (sSst c ⟨rd, ra, BitVec.ofNat 7 (bits 9 3 w), BitVec.ofNat 1 (bits 2 2 w)⟩)
  | 0x1A => guard (z 8 0) (sSldp c ⟨rd, pMid, BitVec.ofNat 1 (bits 10 10 w), bitAt 9 w⟩)
  | 0x1B => guard (z 8 0) (sSstp c ⟨rd, pMid, BitVec.ofNat 1 (bits 10 10 w), bitAt 9 w⟩)
  | 0x20 => guard (z 3 0) (sSetp pHi (BitVec.ofNat 4 (bits 14 11 w)) (BitVec.ofNat 7 (bits 10 4 w)))
  | 0x21 => guard (z 6 0) (sSetps pHi (BitVec.ofNat 8 (bits 14 7 w)))
  | 0x22 => guard (z 14 14 && z 9 0) (sSetpr c pHi ra)
  | 0x23 => guard (z 10 0) (sGetp c rd pMid)
  | 0x28 => guard (z 17 6) (sJmp c target)
  | 0x29 => guard (z 17 14 && z 9 6) (sBz c true ra target)
  | 0x2A => guard (z 17 14 && z 9 6) (sBz c false ra target)
  | 0x2B => guard (z 17 14 && z 9 0) (sJr c ra)
  | 0x2C => guard (z 17 6) (sSwap c target)
  | 0x30 => guard (!bitAt 16 w || z 9 4)
      (sLoop c ⟨BitVec.ofNat 1 (bits 17 17 w), bitAt 16 w, BitVec.ofNat 6 (bits 15 10 w), imm10⟩)
  | 0x34 => guard (z 17 14 && z 3 0) (sMode c (modeOfBits w))
  | 0x35 => guard (z 17 14 && z 9 0) (sModer c ra)
  | 0x38 => guard (z 14 14 && z 5 0) (sPush c pHi ra rb)
  | 0x3C => guard (z 17 14 && z 9 0) (sHoop c ra)
  | 0x3D => guard (z 13 0) (sRdsb c rd)
  | _ => illegalOp c 1 t

/-- An S-slot of an opcode and its other bits, as bits of a stitch word (Table 3-1). -/
def sWord (op rest : Nat) : W128 := BitVec.ofNat 128 (op * 2 ^ 18 + rest) <<< 100

def sRest (rd ra rb : BitVec 4) : Nat := rd.toNat * 2 ^ 14 + ra.toNat * 2 ^ 10 + rb.toNat * 2 ^ 6

end Sys2Proof.Machine
end

