-- ==== Sys2Proof/Machine/VectorSlot.lean ====
section
/-! DEFINITION. The V-slot (03 Tables 3-5 and 3-6, 05 Conversions, 06): vector engine and picot lanes. -/

namespace Sys2Proof.Machine

/-! ## Operand rules (Table 6-2) -/

/-- Types an operation accepts (Table 6-2); `vcvt` has R148 instead. -/
def vTypes (op : Nat) : List Nat :=
  match op with
  | 0x01 => [0, 1, 5]
  | 0x02 => [0, 1, 5]
  | 0x03 => [0, 1, 5]
  | 0x04 => [0, 1, 5]
  | 0x05 => [0, 1, 4, 5]
  | 0x06 => [0, 1, 4, 5]
  | 0x07 => [0, 1]
  | 0x08 => [0, 1, 4, 5]
  | 0x09 => [0, 1, 4, 5]
  | 0x0A => [0, 1, 4, 5]
  | 0x0B => [0, 1, 2, 3, 4, 5]
  | 0x0C => [0, 1, 2, 3, 4, 5]
  | 0x0D => [0, 1, 2, 3, 4, 5]
  | 0x10 => [0, 1, 2, 3, 4, 5]
  | 0x14 => [2, 3, 4]
  | 0x15 => [0]
  | 0x18 => [0, 1, 4, 5]
  | 0x19 => [0, 1, 5]
  | 0x1C => [0, 1]
  | 0x1D => [0, 1]
  | 0x20 => [0, 1, 2, 3, 4, 5]
  | _ => []

/-- Operations that read b, and permit broadcast. -/
def vReadsB (op : Nat) : Bool := (1 ≤ op && op ≤ 0x0B) || op == 0x1C || op == 0x1D

/-- Operations whose c field is a mask selector. -/
def vMasked (op : Nat) : Bool := op == 0x0B || op == 0x0C || op == 0x0D

def vIsCompare (op : Nat) : Bool := op == 0x08 || op == 0x09 || op == 0x0A

/-- Pairs of Table 5-4: source, destination. -/
def cvtLegal (src dst : Nat) : Bool :=
  [(1, 0), (1, 2), (1, 3), (1, 4), (0, 2), (0, 3), (0, 4), (0, 1), (2, 0), (3, 0), (2, 1), (3, 1), (4, 0), (4, 1),
   (1, 5), (0, 5), (5, 1), (5, 0)].contains (src, dst)

/-- R148, R169, R177, R178: the slot is not an illegal encoding. -/
def vLegal (t : Tile) (op : Nat) (f : VF) : Bool :=
  (vTypes op).contains f.ty.toNat
  && (f.bcast == 0 || (vReadsB op && f.bcast != 3))
  && (vReadsB op || f.b == 0)
  && (if op = 0x04 then true
      else if vMasked op then f.c.toNat < 4
      else if op = 0x10 then f.c.toNat < 8 && cvtLegal f.ty.toNat f.c.toNat
        && !(t.mode.cur.mfmt.toNat = 5 && (f.ty.toNat = 4 || f.c.toNat = 4))
      else if op = 0x14 then f.c.toNat < 6
      else if op = 0x15 then
        let d := (sGet 0 (f.c.toNat / 2) t.num.pdesc).toNat
        let step := (BitVec.ofNat 8 (bits 23 16 d)).toInt
        (f.c == 0 || f.c == 2 || f.c == 4) && bits 14 7 d ≠ 0xFF && -12 ≤ step && step ≤ 4 && bits 25 24 d ≠ 3
          && bits 31 28 d == 0
      else f.c == 0)
  && !(vIsCompare op && bitAt 2 f.vd.toNat)
  && !((op == 0x1C || op == 0x1D) && bitAt 0 f.vd.toNat)

/-- Latency of Table 3-11. -/
def vLatency (op ty : Nat) : Nat :=
  if op ≤ 0x04 || op = 0x07 then (if ty = 0 then 4 else 5)
  else if op ≤ 0x0B then 2
  else if op = 0x0C || op = 0x0D || op = 0x14 then 3
  else if op = 0x10 then 4
  else if op = 0x15 then 5
  else if op = 0x20 then 1
  else 6

/-! ## Operands -/

/-- Operand codes 8 to 15 name a bank read through a pointer (Table 3-5). -/
def vPointer (f : BitVec 4) : Option (BitVec 3) := if 8 ≤ f.toNat then some (f.setWidth 3) else none

/-- One operand. A pointer already read by this word makes no second access (R168). -/
def vOperand (c : BeatCtx) (f : BitVec 4) (seen : List (BitVec 3 × Pz 128)) (t : Tile) :
    Tile × Pz 128 × List (BitVec 3 × Pz 128) :=
  match vPointer f with
  | none => (t, getV t (f.setWidth 3), seen)
  | some r =>
    match seen.find? (fun e => e.1 == r) with
    | some e => (t, e.2, seen)
    | none =>
      let (t1, v) := readPtr c 2 r t
      (t1, v, (r, v) :: seen)

/-- R79: the increments of the operand fields that name pointers. -/
def vIncs (inc : Bool) (fs : List (BitVec 4)) (t : Tile) : Tile :=
  fs.foldl (fun t f => match vPointer f with
    | some r => incPtr inc r t
    | none => t) t

/-- Broadcast of b against the block (R173). -/
def vBroadcast (ty : BitVec 3) (bcast : BitVec 2) (b : W128) : W128 :=
  let w := laneWidth ty
  if bcast = 1 then mapLanes ty fun k => lane w (k % 4) b
  else if bcast = 2 then mapLanes ty fun k => lane w (k / 4) b
  else b

/-! ## Lanewise results -/

/-- R147, R170, R171. -/
def vLane (op : Nat) (ty : BitVec 3) (a b c : Nat) : Nat :=
  let x := decodeLane ty a
  let y := decodeLane ty b
  match op with
  | 0x01 => roundLane ty (addNum x y)
  | 0x02 => roundLane ty (addNum x (negNum y))
  | 0x03 => roundLane ty (mulNum x y)
  | 0x04 => roundLane ty (addNum (mulNum x y) (decodeLane ty c))
  | 0x05 => minMaxLane ty false a b
  | 0x06 => minMaxLane ty true a b
  | _ =>
    match x, y with
    | .inf n, .inf m => if n == m then 0 else roundLane ty (addNum x (negNum y))
    | _, _ => roundLane ty (addNum x (negNum y))

/-- R170: a comparison of two lanes. -/
def vCompare (op : Nat) (ty : BitVec 3) (a b : Nat) : Bool :=
  let x := decodeLane ty a
  let y := decodeLane ty b
  match op with
  | 0x08 => numLt x y
  | 0x09 => numLt x y || numEq x y
  | _ => numEq x y

/-- R172, Table 6-3: sums rounded once each, in order. -/
def vSum (ty : BitVec 3) (a : W128) : Nat :=
  let w := laneWidth ty
  let add (i j : Nat) : Nat := roundLane ty (addNum (decodeLane ty i) (decodeLane ty j))
  let q (o : Nat) : Nat := add (add (lane w o a) (lane w (o + 1) a)) (add (lane w (o + 2) a) (lane w (o + 3) a))
  if ty = 0 then add (q 0) (q 4) else q 0

def vMaxAll (ty : BitVec 3) (a : W128) : Nat :=
  (List.range (laneCount ty)).foldl (fun m k => if k = 0 then m else minMaxLane ty true m (lane (laneWidth ty) k a))
    (minMaxLane ty true (lane (laneWidth ty) 0 a) (lane (laneWidth ty) 0 a))

/-- Active lanes of a mask, ascending (R175). -/
def activeLanes (n : Nat) (m : W16) : List Nat := (List.range n).filter fun k => bitAt k m.toNat

/-- R175: compress. -/
def vCompress (ty : BitVec 3) (m : W16) (a : W128) : W128 :=
  ofLanes (laneWidth ty) ((activeLanes (laneCount ty) m).map fun k => lane (laneWidth ty) k a)

/-- R175: expand, with the mask of the bits written. -/
def vExpand (ty : BitVec 3) (m : W16) (a : W128) : W128 × W128 :=
  let w := laneWidth ty
  let act (k : Nat) : Bool := bitAt k m.toNat
  let below (k : Nat) : Nat := (activeLanes k m).length
  (mapLanes ty fun k => if act k then lane w (below k) a else 0,
   mapLanes ty fun k => if act k then 2 ^ w - 1 else 0)

/-! ## Picot lanes (R176 to R180) -/

def picotEntry (t : Tile) (table i : Nat) : Nat := (sGet 0 (table * 256 + i) t.num.picot).toNat

def vLookup (t : Tile) (c : Nat) (a : W128) : W128 :=
  ofLanes 8 ((List.range 16).map fun k => picotEntry t c (lane 8 k a))

/-- Entry i of pair c as a BF16 code (R178). -/
def pairEntry (t : Tile) (c i : Nat) : Nat := picotEntry t c i + picotEntry t (c + 1) i * 256

/-- A lane of `vluti`: its BF16 code and its counts below, above and empty. -/
def vInterp (t : Tile) (c : Nat) (code : Nat) : Nat × Nat × Nat × Nat :=
  let d := (sGet 0 (c / 2) t.num.pdesc).toNat
  let x := decodeCode fmtBF16 code
  let bf (v : FpNum) : Nat := rne fmtBF16 v
  match bits 25 24 d with
  | 0 =>
    let below := (if bitAt 26 d then 0 else pairEntry t c 0, 1, 0, 0)
    let above := (if bitAt 27 d then 0x7F80 else pairEntry t c 255, 0, 1, 0)
    match x with
    | .nan => (bf .nan, 0, 0, 0)
    | .inf n => if n then below else above
    | .fin _ _ _ =>
      let u := scaleNum (-(BitVec.ofNat 8 (bits 23 16 d)).toInt) (addNum x (negNum (decodeCode fmtBF16 (bits 15 0 d))))
      if numLt u (.fin false 0 0) then below
      else if numLt (.fin false 255 0) u then above
      else
        match u with
        | .fin _ m e =>
          let u256 := (onGrid (-8) m e).1
          let i := u256 / 256
          let f := u256 % 256
          if f = 0 then
            let v := decodeCode fmtBF16 (pairEntry t c i)
            (if numIsNan v then bf .nan else if numIsZero v then 0 else pairEntry t c i, 0, 0, 0)
          else
            let a := mulNum (decodeCode fmtBF16 (pairEntry t c i)) (.fin false (256 - f) (-8))
            let b := mulNum (decodeCode fmtBF16 (pairEntry t c (i + 1))) (.fin false f (-8))
            (bf (addMatrix a b), 0, 0, 0)
        | _ => (bf .nan, 0, 0, 0)
  | m =>
    match x with
    | .nan => (bf .nan, 0, 0, 0)
    | .inf n => if m = 1 then (0, 0, 0, 0) else if n then (bf .nan, 0, 0, 0) else (0, 0, 0, 0)
    | .fin neg mag e =>
      if mag = 0 then (if m = 1 then (0, 0, 0, 1) else (0x7F80, 0, 0, 0))
      else
        let ex : Int := (mag.log2 : Int) + e
        let g := (mag <<< 7) / 2 ^ mag.log2 % 128
        if m = 1 then
          let y := scaleNum (-ex) (decodeCode fmtBF16 (pairEntry t c g))
          (bf (if neg then negNum y else y), 0, 0, 0)
        else if neg then (bf .nan, 0, 0, 0)
        else
          let odd : Nat := (ex % 2).toNat
          (bf (scaleNum (-((ex - odd) / 2)) (decodeCode fmtBF16 (pairEntry t c (128 * odd + g)))), 0, 0, 0)

/-! ## Conversions (R148 to R157) -/

/-- What a conversion places and how (Table 5-4). -/
structure CvtShape where
  n         : Nat
  srcWidth  : Nat
  dstWidth  : Nat
  srcPacked : Bool
  dstPacked : Bool
  exact     : Bool
  deriving DecidableEq, Repr

def cvtShape (mfmt : BitVec 3) (src dst : Nat) : CvtShape :=
  let w (ty : Nat) : Nat := if ty = 4 then mfmtWidth mfmt else laneWidth (BitVec.ofNat 3 ty)
  let narrow (ty : Nat) : Bool := ty == 2 || ty == 3 || ty == 4
  let n := if (src = 0 && narrow dst) || (narrow src && dst = 0) then 8 else 4
  let srcPacked := narrow src || (src == 0 && (dst == 1 || dst == 5))
  let dstPacked := narrow dst || (dst == 0 && (src == 1 || src == 5))
  ⟨n, w src, w dst, srcPacked, dstPacked, narrow src || (src == 0 && dst == 1)⟩

/-- Positions of narrow element k from cursor c (R149): a mask-free rotation by the cursor. -/
def rotLeft128 (v : W128) (c : Nat) : W128 := v.rotateLeft (c % 128)

/-- One element converted from `src` to `dst`. -/
def cvtElement (mfmt : BitVec 3) (src dst rmode k r code : Nat) : Conv :=
  let x := if src = 4 then decodeMfmt mfmt code else decodeLane (BitVec.ofNat 3 src) code
  match dst with
  | 0 => convertFmt fmtBF16 rmode k r x
  | 1 => convertFmt fmtFP32 rmode k r x
  | 2 => convertFmt fmtE4M3 rmode k r x
  | 3 => convertFmt fmtE5M2 rmode k r x
  | 5 => convertI32 rmode k r x
  | _ =>
    match mfmt.toNat with
    | 0 => convertT2 rmode k r x
    | 1 => convertFmt fmtE2M1 rmode k r x
    | 2 => convertFmt fmtE3M2 rmode k r x
    | 3 => convertFmt fmtE4M3 rmode k r x
    | _ => convertFmt fmtE5M2 rmode k r x

/-! ## The operation -/

def allBits : W128 := BitVec.ofNat 128 (2 ^ 128 - 1)

/-- A result of the V-slot in flight. -/
def vResult (c : BeatCtx) (op : Nat) (f : VF) (target : Target) (reg : BitVec 4) (value bits_ aux : W128)
    (part pair poison : Bool) (sat nan : Nat) (t : Tile) : Tile :=
  { t with flights := t.flights ++ [{
    unit := 1, target := target, reg := reg, exec := c.sBeat, due := c.sBeat + vLatency op f.ty.toNat, value := value
    bits := bits_, part := part, pair := pair, aux := aux, op := BitVec.ofNat 7 op, ty := f.ty, poison := poison
    sat := sat, nan := nan }] }

def setCursor (r : BitVec 3) (v : BitVec 7) (t : Tile) : Tile :=
  { t with num := { t.num with cursors := sPut 0 r.toNat v t.num.cursors } }

def getCursor (t : Tile) (r : BitVec 3) : BitVec 7 := sGet 0 r.toNat t.num.cursors

/-- R148 to R156. -/
def vConvert (c : BeatCtx) (f : VF) (a : Pz 128) (t : Tile) : Tile :=
  let mode := t.mode.cur
  let src := f.ty.toNat
  let dst := f.c.toNat
  let sh := cvtShape mode.mfmt src dst
  let t := if mode.rmode = 2 then stepSr t else t
  let k := mode.srBits.toNat
  let fromReg := f.a.toNat < 8
  let aReg : BitVec 3 := f.a.setWidth 3
  let srcBits : W128 :=
    if sh.srcPacked && fromReg then a.data.rotateRight ((getCursor t aReg).toNat) else a.data
  let codes := (List.range sh.n).map fun i => lane sh.srcWidth i srcBits
  let rmode := if sh.exact then 0 else mode.rmode.toNat
  let res := (List.range sh.n).map fun i =>
    cvtElement mode.mfmt src dst rmode k (srDraw k (getSr t i)) (codes.getD i 0)
  let invalid := if src = 4 && mode.mfmt = 0 then (codes.filter (· == 2)).length else 0
  let t := if invalid = 0 then t else countT2 invalid t
  let v := ofLanes sh.dstWidth (res.map Conv.code)
  let sat := (res.filter Conv.sat).length
  let nan := (res.filter Conv.nan).length
  let reg : BitVec 4 := f.vd.setWidth 4
  if sh.dstPacked then
    let cur := (getCursor t f.vd).toNat
    let m := rotLeft128 (BitVec.ofNat 128 (2 ^ (sh.n * sh.dstWidth) - 1)) cur
    vResult c 0x10 f .vector reg (rotLeft128 v cur) m m true false a.poison sat nan
      (setCursor f.vd (BitVec.ofNat 7 (cur + sh.n * sh.dstWidth)) t)
  else
    let t := if sh.srcPacked && fromReg then
        setCursor aReg (BitVec.ofNat 7 ((getCursor t aReg).toNat + sh.n * sh.srcWidth)) t else t
    vResult c 0x10 f .vector reg v allBits 0 false false a.poison sat nan (setCursor f.vd 0 t)

/-- A V-slot operation other than `vnop` (R169 to R180). -/
def vOp (c : BeatCtx) (op : Nat) (f : VF) (t : Tile) : Tile :=
  if !vLegal t op f then illegalOp c 2 t
  else
    let (t, a, seen) := vOperand c f.a [] t
    let (t, b0, seen) := if vReadsB op then vOperand c f.b seen t else (t, ({} : Pz 128), seen)
    let (t, d, _) := if op = 0x04 then vOperand c f.c seen t else (t, ({} : Pz 128), seen)
    let t := vIncs f.inc ([f.a] ++ (if vReadsB op then [f.b] else []) ++ (if op = 0x04 then [f.c] else [])) t
    let w := laneWidth f.ty
    let b : W128 := vBroadcast f.ty f.bcast b0.data
    let mask := getM t (f.c.setWidth 2)
    let p := a.poison || (vReadsB op && b0.poison) || (op == 0x04 && d.poison) || (vMasked op && mask.poison)
    let reg : BitVec 4 := f.vd.setWidth 4
    let full (v : W128) (t : Tile) : Tile :=
      vResult c op f .vector reg v allBits 0 false false p 0 0 (setCursor f.vd 0 t)
    if op ≤ 0x07 then full (mapLanes f.ty fun k => vLane op f.ty (lane w k a.data) (lane w k b) (lane w k d.data)) t
    else if vIsCompare op then
      let m := ((List.range (laneCount f.ty)).filter fun k => vCompare op f.ty (lane w k a.data) (lane w k b)).foldl
        (fun acc k => acc + 2 ^ k) 0
      vResult c op f .mask (f.vd.setWidth 2 |>.setWidth 4) (BitVec.ofNat 128 m) (BitVec.ofNat 128 0xFFFF) 0 false false p
        0 0 t
    else match op with
    | 0x0B => full (mapLanes f.ty fun k => if bitAt k mask.data.toNat then lane w k a.data else lane w k b) t
    | 0x0C => full (vCompress f.ty mask.data a.data) t
    | 0x0D =>
      let (v, m) := vExpand f.ty mask.data a.data
      vResult c op f .vector reg v m m true false p 0 0 (setCursor f.vd 0 t)
    | 0x10 => vConvert c f a t
    | 0x14 => full (vLookup t f.c.toNat a.data) t
    | 0x15 =>
      let rs := (List.range 8).map fun k => vInterp t f.c.toNat (lane 16 k a.data)
      full (ofLanes 16 (rs.map (·.1)))
        (countPicot ((rs.map (·.2.1)).sum) ((rs.map (·.2.2.1)).sum) ((rs.map (·.2.2.2)).sum) t)
    | 0x18 => full (mapLanes f.ty fun _ => vMaxAll f.ty a.data) t
    | 0x19 => full (mapLanes f.ty fun _ => vSum f.ty a.data) t
    | 0x20 => full a.data t
    | _ =>
      let rs := (List.range (laneCount f.ty)).map fun k =>
        let x := decodeLane f.ty (lane w k a.data)
        let y := decodeLane f.ty (lane w k b)
        compensated f.ty (if op = 0x1C then addNum x y else mulNum x y)
      vResult c op f .vector reg (ofLanes w (rs.map (·.1))) allBits (ofLanes w (rs.map (·.2))) false true p 0 0
        (setCursor (f.vd + 1) 0 (setCursor f.vd 0 t))

/-- The slot as bits (Table 3-5). -/
def vFields (w : Nat) : VF :=
  ⟨BitVec.ofNat 3 (bits 20 18 w), BitVec.ofNat 4 (bits 17 14 w), BitVec.ofNat 4 (bits 13 10 w),
   BitVec.ofNat 4 (bits 9 6 w), BitVec.ofNat 3 (bits 5 3 w), BitVec.ofNat 2 (bits 2 1 w), bitAt 0 w⟩

def vSlot (c : BeatCtx) (w : Nat) (t : Tile) : Tile :=
  if bits 27 21 w = 0 then (if w = 0 then t else illegalOp c 2 t) else vOp c (bits 27 21 w) (vFields w) t

/-- A V-slot as bits of a stitch word. -/
def vWord (op : Nat) (f : VF) : W128 :=
  BitVec.ofNat 128 (op * 2 ^ 21 + f.vd.toNat * 2 ^ 18 + f.a.toNat * 2 ^ 14 + f.b.toNat * 2 ^ 10 + f.c.toNat * 2 ^ 6
    + f.ty.toNat * 2 ^ 3 + f.bcast.toNat * 2 + b2n f.inc) <<< 72

end Sys2Proof.Machine
end

