-- ==== Sys2Proof/Machine/MatrixSlot.lean ====
section
/-! DEFINITION. The M-slot and the matrix array of one tile (04, 05 Products and Scales). -/

namespace Sys2Proof.Machine

/-! ## Elements (R117, R118, R126, R142) -/

def wordsValue (m : Sparse (Pz 64)) : Nat :=
  (sGet {} 0 m).data.toNat + (sGet {} 1 m).data.toNat * 2 ^ 64 + (sGet {} 2 m).data.toNat * 2 ^ 128

/-- Element codes `k0` to `k0` + n − 1 of width w of a run of words, with the poison of the words that carry them. -/
def elements (w k0 n : Nat) (m : Sparse (Pz 64)) : List Nat × Bool :=
  let v := wordsValue m
  ((List.range n).map fun k => element w (k0 + k) v,
   (List.range 3).any fun i => (sGet {} i m).poison && w * k0 < 64 * (i + 1) && 64 * i < w * (k0 + n))

/-- Operand elements that one output phase uses: `slot` is the position within a 192-bit group in E3M2, and otherwise
the word that carries them. -/
def operandElements (mfmt : BitVec 3) (group word : Nat) (m : Sparse (Pz 64)) : List Nat × Bool :=
  if mfmt = 2 then elements 6 (8 * group) 8 m
  else elements (mfmtWidth mfmt) 0 (mfmtE mfmt) [(0, sGet {} word m)]

/-- The exact sum of products of two element lists (R142). -/
def dotSum (mfmt : BitVec 3) (a b : List Nat) : FpNum :=
  groupSum (List.zipWith (fun x y => mulNum (decodeMfmt mfmt x) (decodeMfmt mfmt y)) a b)

/-! ## Phases (Table 4-2) -/

def readsStream (mfmt : BitVec 3) (phase fp6 : Nat) : Bool := phase == 0 && (mfmt != 2 || fp6 < 3)

def readsB (mfmt : BitVec 3) (phase : Nat) : Bool :=
  if mfmt = 5 then phase % 2 == 0 else if mfmt = 2 then phase < 3 else true

/-- The output position a phase produces, if any. -/
def outputPosition (mfmt : BitVec 3) (phase : Nat) : Option Nat :=
  if mfmt = 5 then (if phase % 2 = 1 then some (phase / 2) else none) else some phase

/-- R117, R118: an open group is closed, and the E3M2 cycle starts again. -/
def closeGroup (a : ArrayState) : ArrayState := { a with phase := 0, inGroup := false, fp6 := 0 }

/-! ## Operations at their execution beat -/

/-- R124: the tile's part of the stationary chain shifts one word south. -/
def mLoad (c : BeatCtx) (f : MF) (t : Tile) : Tile :=
  let (t, w) : Tile × Pz 64 :=
    if t.hoop.top then
      let (t1, w) := readPtrWord c 3 f.pa t
      let t1 := if t.mode.cur.mfmt = 0 then countT2 (countT2Invalid w.data) t1 else t1
      (incPtr f.incA f.pa t1, w)
    else (t, c.north.south)
  let st := t.arr.stat
  let chain : Sparse (Pz 64) :=
    sPut {} 0 w (sPut {} 1 (sGet {} 0 st) (sPut {} 2 (sGet {} 1 st) (sPut {} 3 (sGet {} 2 st) [])))
  { t with
    arr := { closeGroup t.arr with
      stat := chain, loadShifts := satAdd 13 t.arr.loadShifts 1
      pipe := t.arr.pipe ++ [{ op := 1, stat := f.stat, mfmt := t.mode.cur.mfmt, exec := c.sBeat }] }
    beat := { t.beat with out := { t.beat.out with south := sGet {} 3 st } } }

/-- One phase of products (R117 to R123, R128). -/
def mMac (c : BeatCtx) (f : MF) (t : Tile) : Tile :=
  let mfmt := t.mode.cur.mfmt
  let changed := mfmt ≠ t.arr.groupMfmt || f.stat ≠ t.arr.groupStat
  let arr := if changed then closeGroup t.arr else t.arr
  let phase := if arr.inGroup then arr.phase.toNat else 0
  let t := { t with arr := { arr with groupMfmt := mfmt, groupStat := f.stat, loadShifts := 0 } }
  let fp6 := t.arr.fp6.toNat
  let slotA := if mfmt = 2 then fp6 else 0
  -- the streamed word
  let t :=
    if readsStream mfmt phase fp6 then
      let (t, w) : Tile × Pz 64 :=
        if t.hoop.west then
          let (t1, w) := readPtrWord c 3 f.pa t
          let t1 := if mfmt = 0 then countT2 (countT2Invalid w.data) t1 else t1
          (incPtr f.incA f.pa t1, w)
        else (t, c.west.east)
      { t with arr := { t.arr with heldA := sPut {} slotA w t.arr.heldA }
               beat := { t.beat with out := { t.beat.out with east := w } } }
    else t
  -- the second stream of output-stationary mode
  let slotB := if mfmt = 2 then phase else 0
  let pb : BitVec 3 := f.pa + 1
  let t :=
    if f.stat = 1 && readsB mfmt phase then
      let (t, w) : Tile × Pz 64 :=
        if t.hoop.top then
          let (t1, w) := readPtrWord c 3 pb t
          let t1 := if mfmt = 0 then countT2 (countT2Invalid w.data) t1 else t1
          (incPtr f.incA pb t1, w)
        else (t, c.north.south)
      { t with arr := { t.arr with heldB := sPut {} slotB w t.arr.heldB }
               beat := { t.beat with out := { t.beat.out with south := w } } }
    else t
  let pos := outputPosition mfmt phase
  let q := pos.getD 0
  let (ea, pa) := operandElements mfmt fp6 0 t.arr.heldA
  let (eb, pb') := if f.stat = 1 then operandElements mfmt q 0 t.arr.heldB else operandElements mfmt q q t.arr.stat
  let pp := getP t f.pp
  let fl : MFlight :=
    { op := 2, stat := f.stat, phase := BitVec.ofNat 3 phase, mfmt := mfmt, exec := c.sBeat, position := BitVec.ofNat 2 q
      bank := pp.bank, ptr := f.pp, row := BitVec.ofNat 6 (pp.word.toNat / 2), output := pos.isSome
      accum := pos.isSome && (f.stat == 1 || t.hoop.bottom), zero := f.zero, top := t.hoop.top
      sum := if pos.isSome then dotSum mfmt ea eb else .fin false 0 0, poison := pos.isSome && (pa || pb') }
  let last := phase + 1 = mfmtGroup mfmt
  let t := { t with arr := { t.arr with
    pipe := t.arr.pipe ++ [fl]
    inGroup := !last, phase := if last then 0 else BitVec.ofNat 3 (phase + 1)
    fp6 := if last && mfmt == 2 then t.arr.fp6 + 1 else t.arr.fp6 } }
  incPtr (f.incP && pos.isSome) f.pp t

/-- A P-mem row access of the M-slot, made by an operation that executed in `exec`: `bad_bank` unless bank 6 or 7 (R81),
and `ungated_read` when it reads the row (R46). -/
def rowAccess (c : BeatCtx) (exec : Nat) (bank : BitVec 4) (ptr : BitVec 3) (row : BitVec 6) (reads : Bool) (t : Tile) :
    Tile × Bool :=
  if bank ≠ 6 && bank ≠ 7 then (raise c 0x04 3 (bank.toNat + ptr.toNat * 2 ^ 4) t, false)
  else
    let (t, made) := slotAccess c 3 exec bank t
    (if made && reads then checkGated c 3 bank (row.toNat * 2) 2 t else t, made)

def rowWord (row : BitVec 6) (i : Nat) : BitVec 7 := BitVec.ofNat 7 (row.toNat * 2 + i)

/-- R127. -/
def mDrain (c : BeatCtx) (f : MF) (t : Tile) : Tile :=
  let pp := getP t f.pp
  let row := BitVec.ofNat 6 (pp.word.toNat / 2)
  let (t, made) := rowAccess c c.sBeat pp.bank f.pp row false t
  let a (i : Nat) : Pz 32 := sGet {} i t.arr.acc
  let t := if made then
      putWord pp.bank (rowWord row 0) ⟨(a 1).data ++ (a 0).data, (a 0).poison || (a 1).poison⟩
        (putWord pp.bank (rowWord row 1) ⟨(a 3).data ++ (a 2).data, (a 2).poison || (a 3).poison⟩ t)
    else t
  let t := { t with arr := { closeGroup t.arr with
    pipe := t.arr.pipe ++ [{ op := 3, stat := f.stat, mfmt := t.mode.cur.mfmt, exec := c.sBeat, bank := pp.bank, row := row
                             ptr := f.pp, accum := made, landed := true }] } }
  incPtr f.incP f.pp t

/-- R145: the scale word is read at once; the row is scaled three beats later. -/
def mScale (c : BeatCtx) (f : MF) (t : Tile) : Tile :=
  let (t, w) := readPtrWord c 3 f.pa t
  let pp := getP t f.pp
  let t := { t with arr := { t.arr with
    pipe := t.arr.pipe ++ [{ op := 4, stat := f.stat, exec := c.sBeat, bank := pp.bank, ptr := f.pp
                             row := BitVec.ofNat 6 (pp.word.toNat / 2), accum := true, scale := w.data
                             poison := w.poison }] } }
  incPtr f.incP f.pp (incPtr f.incA f.pa t)

/-! ## Operations in flight -/

/-- One entry scaled (R145, R146): its code, and whether it counts in `mscale_range` and in `scale_nan`. -/
def scaleEntry (code ep er : Nat) : Nat × Nat × Nat :=
  if ep = 0xFF || er = 0xFF then (0x7FC00000, 0, 1)
  else
    match decodeCode fmtFP32 code with
    | .fin n m e =>
      let x := scaleNum ((ep : Int) + er - 254) (.fin n m e)
      let r := rne fmtFP32 x
      let r := if m = 0 then code else r
      (r, if m = 0 || numEq (decodeCode fmtFP32 r) x then 0 else 1, 0)
    | _ => (code, 0, 0)

/-- R145 in its access beat. -/
def scaleLands (c : BeatCtx) (fl : MFlight) (t : Tile) : Tile :=
  let (t, made) := rowAccess c fl.exec fl.bank fl.ptr fl.row true t
  if !made then t
  else
    let w0 := getWord t fl.bank (rowWord fl.row 0)
    let w1 := getWord t fl.bank (rowWord fl.row 1)
    let v : W128 := w1.data ++ w0.data
    let er := bits 39 32 fl.scale.toNat
    let rs := (List.range 4).map fun p => scaleEntry (lane 32 p v) (element 8 p fl.scale.toNat) er
    let v' := ofLanes 32 (rs.map (·.1))
    let p := w0.poison || w1.poison || fl.poison
    countScale ((rs.map (·.2.1)).sum) ((rs.map (·.2.2)).sum)
      (putWord fl.bank (rowWord fl.row 0) ⟨v'.setWidth 64, p⟩ (putWord fl.bank (rowWord fl.row 1) ⟨(v' >>> 64).setWidth 64, p⟩ t))

/-- R121, R122, R143, R144: the accumulation of an output into its P-mem entry. -/
def macLands (c : BeatCtx) (fl : MFlight) (t : Tile) : Tile :=
  let (t, made) := rowAccess c fl.exec fl.bank fl.ptr fl.row (!fl.zero) t
  if !made then t
  else
    let w0 := getWord t fl.bank (rowWord fl.row 0)
    let w1 := getWord t fl.bank (rowWord fl.row 1)
    let q := fl.position.toNat
    let w := if q < 2 then w0 else w1
    let old : W32 := halfOf (BitVec.ofNat 1 q) w.data
    let new : W32 :=
      if fl.stat = 1 then accFP32 (if fl.zero then 0 else old) fl.sum
      else if fl.zero then fl.value
      else accFP32 old (decodeCode fmtFP32 fl.value.toNat)
    let p := fl.poison || (!fl.zero && (w0.poison || w1.poison))
    let w' : W64 := withHalf (BitVec.ofNat 1 q) new w.data
    putWord fl.bank (rowWord fl.row 0) ⟨if q < 2 then w' else w0.data, p⟩
      (putWord fl.bank (rowWord fl.row 1) ⟨if q < 2 then w1.data else w', p⟩ t)

/-- The accumulations whose access beat has come: `mmac` nine beats and `mscale` three beats after execution. -/
def landAccumulations (c : BeatCtx) (t : Tile) : Tile :=
  t.arr.pipe.foldl (fun t fl =>
    let due := fl.accum && !fl.landed && fl.exec + (if fl.op = 4 then 3 else 9) ≤ c.sBeat
    if !due then t
    else
      let t := if fl.op = 4 then scaleLands c fl t else macLands c fl t
      { t with arr := { t.arr with pipe := t.arr.pipe.map fun g => if g = fl then { g with landed := true } else g } }) t

/-- R121, R128: an output is formed six beats after execution with the partial sum that arrives in that beat. -/
def formOutputs (c : BeatCtx) (t : Tile) : Tile :=
  t.arr.pipe.foldl (fun t fl =>
    let due := fl.op == 2 && fl.output && !fl.formed && fl.exec + 6 ≤ c.sBeat
    if !due then t
    else
      let p : Pz 32 := if fl.stat = 1 || fl.top then {} else c.north.psum
      let v := accFP32 p.data fl.sum
      let poison := fl.poison || p.poison
      { t with
        arr := { t.arr with
          acc := sPut {} fl.position.toNat ⟨v, poison⟩ t.arr.acc
          pipe := t.arr.pipe.map fun g => if g = fl then { g with formed := true, value := v, poison := poison } else g }
        beat := { t.beat with out := { t.beat.out with psum := if fl.stat = 1 then {} else ⟨v, poison⟩ } } }) t

/-- R130: an entry leaves the pipeline ten beats after its execution. -/
def retirePipe (c : BeatCtx) (t : Tile) : Tile :=
  { t with arr := { t.arr with pipe := t.arr.pipe.filter fun fl => c.sBeat + 1 < fl.exec + 10 } }

/-! ## The slot as bits (Table 3-7) -/

def mFields (w : Nat) : MF :=
  ⟨BitVec.ofNat 2 (bits 15 14 w), BitVec.ofNat 3 (bits 13 11 w), BitVec.ofNat 3 (bits 10 8 w), bitAt 7 w, bitAt 6 w, bitAt 5 w⟩

/-- One M-slot operation 1 to 4; stat 3 is reserved. -/
def mOp (c : BeatCtx) (op : Nat) (f : MF) (t : Tile) : Tile :=
  if f.stat = 3 then illegalOp c 3 t
  else match op with
  | 1 => mLoad c f t
  | 2 => mMac c f t
  | 3 => mDrain c f t
  | _ => mScale c f t

def mSlot (c : BeatCtx) (w : Nat) (t : Tile) : Tile :=
  let op := bits 19 16 w
  if op = 0 then (if w = 0 then t else illegalOp c 3 t)
  else if 5 ≤ op || bits 4 0 w ≠ 0 then illegalOp c 3 t
  else mOp c op (mFields w) t

def mWord (op : Nat) (f : MF) : W128 :=
  BitVec.ofNat 128 (op * 2 ^ 16 + f.stat.toNat * 2 ^ 14 + f.pa.toNat * 2 ^ 11 + f.pp.toNat * 2 ^ 8 + b2n f.incA * 2 ^ 7
    + b2n f.incP * 2 ^ 6 + b2n f.zero * 2 ^ 5) <<< 52

end Sys2Proof.Machine
end

