-- ==== Sys2Proof/Machine/Knots.lean ====
section
/-! DEFINITION. Knot operations at their home (08, Table 8-4). -/

namespace Sys2Proof.Machine

/-- Outcome of an operation: condition met or not, with a status of Table 8-3. -/
structure KnotReply where
  met    : Bool
  status : Byte
  deriving DecidableEq, Repr

def kDone : KnotReply := ⟨true, 0⟩
def kNotMet : KnotReply := ⟨false, 0⟩
def kUnderflow : KnotReply := ⟨true, 0x0F⟩
def kOverflow : KnotReply := ⟨true, 0x10⟩
def kBroken : KnotReply := ⟨true, 0x11⟩

def ownedBy (u : KnotUser) (k : Knot) : Bool :=
  k.state == 1 && k.ownerTile == u.tile
  && (if u.tile then k.ownerX == u.x && k.ownerY == u.y else k.owner == u.thread)

/-- R230: op 1 signal, 2 wait, 3 take, 4 lock, 5 unlock, 6 waitg. -/
def knotApply (op : Nat) (n : Nat) (u : KnotUser) (k : Knot) : Knot × KnotReply :=
  if k.state = 2 then (k, kBroken)
  else match op with
  | 1 =>
    if k.count.toNat + n > 65535 then ({ k with count := 0xFFFF }, kOverflow)
    else ({ k with count := k.count + BitVec.ofNat 16 n }, kDone)
  | 2 => (k, if n ≤ k.count.toNat then kDone else kNotMet)
  | 3 =>
    if k.count.toNat < n then ({ k with count := 0 }, kUnderflow)
    else ({ k with count := k.count - BitVec.ofNat 16 n, gen := k.gen + 1 }, kDone)
  | 4 =>
    if ownedBy u k then (k, kOverflow)
    else if k.state = 0 then
      ({ k with state := 1, ownerTile := u.tile, owner := if u.tile then 0 else u.thread
                ownerX := if u.tile then u.x else 0, ownerY := if u.tile then u.y else 0 }, kDone)
    else (k, kNotMet)
  | 5 =>
    if ownedBy u k then
      ({ k with state := 0, owner := 0, ownerTile := false, ownerX := 0, ownerY := 0, gen := k.gen + 1 }, kDone)
    else (k, kUnderflow)
  | _ => (k, if (k.gen - BitVec.ofNat 16 n).toNat < 32768 then kDone else kNotMet)

/-- R234: `waiters` counts shuttle threads between their first not-met reply and the reply that ends their wait; at 255 it
stays. -/
def countWaiter (op : Nat) (u : KnotUser) (first : Bool) (r : KnotReply) (k : Knot) : Knot :=
  if u.tile || !(op == 2 || op == 4 || op == 6) || k.waiters == 255 then k
  else if !r.met then (if first then { k with waiters := k.waiters + 1 } else k)
  else if first || k.waiters = 0 then k
  else { k with waiters := k.waiters - 1 }

/-- Knot word 0 as the window shows it (Table 2-7). -/
def knotWord (k : Knot) : W64 :=
  BitVec.ofNat 64 (k.count.toNat + k.gen.toNat * 2 ^ 16 + k.state.toNat * 2 ^ 32 + k.owner.toNat * 2 ^ 36
    + b2n k.ownerTile * 2 ^ 48 + k.waiters.toNat * 2 ^ 56)

end Sys2Proof.Machine
end

