-- ==== Sys2Proof/Machine/MemorySlots.lean ====
section
/-! DEFINITION. The L-, T- and K-slots, landings and the hold requests of one tile (02, 03, 07, 08). -/

namespace Sys2Proof.Machine

/-! ## L-slot (Table 3-8) -/

/-- Form 0: land windows; a bit that names the active half declares nothing. -/
def lWindow (land : BitVec 10) (t : Tile) : Tile :=
  { t with beat := { t.beat with windows := land &&& ~~~(BitVec.ofNat 10 (2 ^ (activeBank t).toNat)) } }

/-- Form 0 with `vld_en`. -/
def lVld (c : BeatCtx) (vd ptr : BitVec 3) (inc : Bool) (half : BitVec 1) (t : Tile) : Tile :=
  let p := getP t ptr
  let (t, a) := readPtr c 4 ptr t
  let row := isRowBank p.bank
  let v : W128 := if row || half = 0 then a.data else a.data <<< 64
  let m : W128 := if row then allBits else if half = 0 then BitVec.ofNat 128 (2 ^ 64 - 1) else BitVec.ofNat 128 (2 ^ 128 - 2 ^ 64)
  let t := { t with flights := t.flights ++ [{
    unit := 2, target := .vector, reg := vd.setWidth 4, exec := c.sBeat, due := c.sBeat + 2, value := v, bits := m
    part := !row, pair := false, aux := 0, op := 0, ty := 0, poison := a.poison, sat := 0, nan := 0 }] }
  incPtr inc ptr (setCursor vd 0 t)

/-- R44: the checks of an arm of entry `n` with the given range. -/
def armLegal (t : Tile) (n : BitVec 4) (bank base length : Nat) (paired inUse : Bool) : Bool :=
  let other := getEntry t (n ^^^ 1)
  bank ≤ 9 && 1 ≤ length && length ≤ 128 && base + length ≤ 128
  && (List.range 16).all (fun i =>
    let e := sGet {} i t.board
    i == n.toNat || !e.armed || e.bank.toNat ≠ bank || e.base.toNat + e.length.toNat ≤ base || base + length ≤ e.base.toNat)
  && !(paired && other.armed && (!other.paired || other.length.toNat ≠ length || other.inUse == inUse))
  && !(!paired && other.armed && other.paired)

def pushBoard (o : BoardOp) (n : BitVec 4) (t : Tile) : Tile :=
  { t with beat := { t.beat with boardOps := t.beat.boardOps ++ [o], named := t.beat.named ++ [n] } }

/-- R43, R44. -/
def lArm (c : BeatCtx) (n : BitVec 4) (ptr : BitVec 3) (length : BitVec 7) (paired inUse : Bool) (t : Tile) : Tile :=
  let p := getP t ptr
  let len := if length = 0 then 128 else length.toNat
  if armLegal t n p.bank.toNat p.word.toNat len paired inUse then
    pushBoard (.arm n { bank := p.bank, base := p.word, length := BitVec.ofNat 8 len, paired := paired, inUse := inUse
                        armed := true }) n t
  else raise c 0x07 4 (n.toNat + p.bank.toNat * 2 ^ 4 + p.word.toNat * 2 ^ 8 + len * 2 ^ 16) t

def lRelease (n : BitVec 4) (t : Tile) : Tile := pushBoard (.release n) n t

/-- R202. -/
def lFlip (c : BeatCtx) (n : BitVec 4) (t : Tile) : Tile :=
  let e := getEntry t n
  let o := getEntry t (n ^^^ 1)
  if e.armed && o.armed && e.paired && o.paired && e.length == o.length then
    { t with beat := { t.beat with boardOps := t.beat.boardOps ++ [.flip n] } }
  else raise c 0x07 4 (n.toNat + e.bank.toNat * 2 ^ 4 + e.base.toNat * 2 ^ 8 + e.length.toNat * 2 ^ 16) t

def lSlot (c : BeatCtx) (w : Nat) (t : Tile) : Tile :=
  let entry := BitVec.ofNat 4 (bits 15 12 w)
  if !bitAt 19 w then
    let t := lWindow (BitVec.ofNat 10 (bits 9 0 w)) t
    if bitAt 18 w then
      lVld c (BitVec.ofNat 3 (bits 17 15 w)) (BitVec.ofNat 3 (bits 14 12 w)) (bitAt 11 w) (BitVec.ofNat 1 (bits 10 10 w)) t
    else t
  else match bits 18 16 w with
  | 0 => lArm c entry (BitVec.ofNat 3 (bits 11 9 w)) (BitVec.ofNat 7 (bits 8 2 w)) (bitAt 1 w) (bitAt 0 w) t
  | 1 => if bits 11 0 w = 0 then lRelease entry t else illegalOp c 4 t
  | 2 => if bits 11 0 w = 0 then lFlip c entry t else illegalOp c 4 t
  | _ => illegalOp c 4 t

def lWord (v : Nat) : W128 := BitVec.ofNat 128 v <<< 32

/-! ## T-slot (Table 3-9) -/

/-- R83, R215. -/
def tSt (c : BeatCtx) (vs ptr : BitVec 3) (inc : Bool) (half : BitVec 1) (t : Tile) : Tile :=
  let p := getP t ptr
  if isRowBank p.bank && p.bank.toNat < 10 && half ≠ 0 then illegalOp c 5 t
  else
    let v := getV t vs
    let (t, ok) := ptrBank c 5 ptr t
    let (t, made) := if ok then slotAccess c 5 c.sBeat p.bank t else (t, false)
    let t :=
      if !made then t
      else if isRowBank p.bank then
        putWord p.bank (evenWord p.word) ⟨v.data.setWidth 64, v.poison⟩
          (putWord p.bank (evenWord p.word ||| 1) ⟨(v.data >>> 64).setWidth 64, v.poison⟩ t)
      else
        putWord p.bank p.word ⟨if half = 0 then v.data.setWidth 64 else (v.data >>> 64).setWidth 64, v.poison⟩ t
    incPtr inc ptr t

/-- R203, R205: one word enters the drain buffer, or is lost. -/
def drainWord (stream : BitVec 4) (w : Pz 64) (t : Tile) : Tile :=
  let q := sGet 0 stream.toNat t.drain.seq
  let seq := sPut 0 stream.toNat (q + 1) t.drain.seq
  if t.drain.buf.length < 16 then
    { t with drain := { t.drain with buf := t.drain.buf ++ [⟨w.data, stream, q, w.poison⟩], seq := seq } }
  else { t with drain := { t.drain with lost := t.drain.lost + 1, seq := seq } }

/-- Word `i` of what a slot read at a pointer, with that word's own poison (R215). -/
def readWordOf (t : Tile) (p : Ptr) (row : Bool) (a : Pz 128) (i : Nat) : Pz 64 :=
  ⟨(a.data >>> (64 * i)).setWidth 64, a.poison && (!row || (getWord t p.bank (evenWord p.word ||| BitVec.ofNat 7 i)).poison)⟩

def tDrain (c : BeatCtx) (ptr : BitVec 3) (inc : Bool) (stream : BitVec 4) (t : Tile) : Tile :=
  let p := getP t ptr
  let (t, a) := readPtr c 5 ptr t
  let row := isRowBank p.bank
  let t := amaxCapture stream (if row then 2 else 1) a.data t
  let w (i : Nat) : Pz 64 := readWordOf t p row a i
  let t := drainWord stream (w 0) t
  let t := if row then drainWord stream (w 1) t else t
  incPtr inc ptr t

def tDrainv (vs : BitVec 3) (stream : BitVec 4) (t : Tile) : Tile :=
  let v := getV t vs
  let t := amaxCapture stream 2 v.data t
  drainWord stream ⟨(v.data >>> 64).setWidth 64, v.poison⟩ (drainWord stream ⟨v.data.setWidth 64, v.poison⟩ t)

def tSlot (c : BeatCtx) (w : Nat) (t : Tile) : Tile :=
  let vs := BitVec.ofNat 3 (bits 11 9 w)
  let ptr := BitVec.ofNat 3 (bits 8 6 w)
  match bits 15 12 w with
  | 0 => if w = 0 then t else illegalOp c 5 t
  | 1 => if bits 3 0 w = 0 then tSt c vs ptr (bitAt 5 w) (BitVec.ofNat 1 (bits 4 4 w)) t else illegalOp c 5 t
  | 2 => if bits 11 9 w = 0 && bits 4 4 w = 0 then tDrain c ptr (bitAt 5 w) (BitVec.ofNat 4 (bits 3 0 w)) t else illegalOp c 5 t
  | 3 => if bits 8 4 w = 0 then tDrainv vs (BitVec.ofNat 4 (bits 3 0 w)) t else illegalOp c 5 t
  | _ => illegalOp c 5 t

def tWord (v : Nat) : W128 := BitVec.ofNat 128 v <<< 16

/-! ## K-slot (Table 3-10) -/

def tileUser (c : BeatCtx) : KnotUser := ⟨true, 0, c.x, c.y⟩

/-- Fault of a knot status (Table 3-16). -/
def knotFault (status : Byte) : Nat := if status = 0x0F then 0x11 else if status = 0x10 then 0x12 else 0x13

/-- The home of an offset is one of the knots of a tile (R61). -/
def isTileKnot (addr : W64) : Bool :=
  bits 47 34 addr.toNat == 0x400 && 0x2A00 ≤ bits 13 0 addr.toNat && bits 13 0 addr.toNat ≤ 0x2A3F

/-- R230 to R234 on a knot of the tile. -/
def kLocal (c : BeatCtx) (op : Nat) (k : BitVec 3) (n : Byte) (t : Tile) : Tile :=
  let (kn, r) := knotApply op n.toNat (tileUser c) (getKnot t k)
  let t := { t with knots := sPut {} k.toNat kn t.knots }
  if r.status ≠ 0 then raise c (knotFault r.status) 6 k.toNat t
  else if r.met then t
  else { t with hold := { t.hold with waits := t.hold.waits ++ [⟨BitVec.ofNat 3 op, false, k, n, 0, none⟩] } }

/-- Operation word of R237. -/
def knotOpWord (op : Nat) (n : Nat) (first : Bool) : W64 := BitVec.ofNat 64 (op + n * 2 ^ 8 + b2n first * 2 ^ 16)

def knotWords (h : W64) (op n : Nat) (first : Bool) : List OutWord :=
  [⟨h, true, false, true, false⟩, ⟨knotOpWord op n first, false, true, true, false⟩]

/-- R77, R85, R210, R232: a knot operation through a handle. -/
def kRemote (c : BeatCtx) (op : Nat) (k : BitVec 3) (n : Byte) (t : Tile) : Tile :=
  let h := getH t k
  if h = 0 then t
  else if (op = 4 || op = 5) && isTileKnot h then illegalOp c 6 t
  else
    let full := t.push.kWords ≠ []
    let t := offerK c k (knotOpWord op n.toNat (op == 2)) (knotWords h op n.toNat (op == 2)) t
    if (op = 2 || op = 4) && !full then
      { t with hold := { t.hold with waits := t.hold.waits ++ [⟨BitVec.ofNat 3 op, true, k, n, h, none⟩] } }
    else t

def kOp (c : BeatCtx) (op : Nat) (f : KKnot) (t : Tile) : Tile :=
  let ok := if op = 4 || op = 5 then f.n == 0 else f.n != 0
  if !ok then illegalOp c 6 t
  else if f.viaHandle then kRemote c op f.k f.n t
  else kLocal c op f.k f.n t

/-- R47: the test is made after the landing of the beat. -/
def kGate (entry : BitVec 4) (t : Tile) : Tile := { t with beat := { t.beat with gates := t.beat.gates ++ [entry] } }

/-- R237. -/
def kCpush (c : BeatCtx) (handle ptr : BitVec 3) (inc last : Bool) (t : Tile) : Tile :=
  let h := getH t handle
  if h = 0 then t
  else if t.openMsg ≠ 0 && t.openMsg ≠ h then raise c 0x10 6 (1 + handle.toNat * 2) t
  else
    let p := getP t ptr
    let (t, a) := readPtr c 6 ptr t
    let row := isRowBank p.bank
    let w (i : Nat) : Pz 64 := readWordOf t p row a i
    let lo : OutWord := ⟨(w 0).data, false, last && !row, false, (w 0).poison⟩
    let hi : OutWord := ⟨(w 1).data, false, last, false, (w 1).poison⟩
    let ws := (if t.openMsg = 0 then [(⟨h, true, false, false, false⟩ : OutWord)] else []) ++ [lo] ++ (if row then [hi] else [])
    let overrun := !t.push.kWords.isEmpty
    let t := offerK c handle (w 0).data ws t
    let t := if overrun then t else { t with openMsg := if last then 0 else h }
    incPtr inc ptr t

def kSlot (c : BeatCtx) (w : Nat) (t : Tile) : Tile :=
  let f : KKnot := ⟨bitAt 11 w, BitVec.ofNat 3 (bits 10 8 w), BitVec.ofNat 8 (bits 7 0 w)⟩
  let op := bits 15 12 w
  if op = 0 then (if w = 0 then t else illegalOp c 6 t)
  else if op = 1 then (if bits 7 0 w = 0 then kGate (BitVec.ofNat 4 (bits 11 8 w)) t else illegalOp c 6 t)
  else if op ≤ 6 then kOp c (op - 1) f t
  else if op = 7 then
    (if bits 3 0 w = 0 then kCpush c (BitVec.ofNat 3 (bits 11 9 w)) (BitVec.ofNat 3 (bits 8 6 w)) (bitAt 5 w) (bitAt 4 w) t
     else illegalOp c 6 t)
  else illegalOp c 6 t

def kWord (v : Nat) : W128 := BitVec.ofNat 128 v

/-! ## Landing (R50 to R56, R201) -/

/-- The entry a word lands in: for a paired entry the fill half (R201). -/
def landTarget (t : Tile) (entry : BitVec 4) : BitVec 4 :=
  let e := getEntry t entry
  if e.paired then (if !e.inUse then entry else entry ^^^ 1) else entry

/-- Both name one entry, or one pair. -/
def sameTarget (t : Tile) (a b : BitVec 4) : Bool := a == b || ((getEntry t a).paired && b == a ^^^ 1)

/-- A word entering the landing buffer (R50, R201). -/
def enterLanding (c : BeatCtx) (data : W64) (entry : BitVec 4) (offset : BitVec 7) (poison : Bool) (t : Tile) : Tile :=
  let tgt := getEntry t (landTarget t entry)
  let paired := (getEntry t entry).paired
  let buffered := (t.land.filter fun w => !w.faulted && sameTarget t entry w.entry).length
  let cap := if paired then 2 * tgt.length.toNat else tgt.length.toNat
  let stray := !tgt.armed
  let beyond := !stray && (tgt.length.toNat ≤ offset.toNat || cap ≤ tgt.received.toNat + buffered)
  let slot : BitVec 2 := ((List.range 4).find? fun i => t.land.all fun w => w.slot.toNat ≠ i).getD 0 |> BitVec.ofNat 2
  let t := { t with land := t.land ++ [⟨slot, data, offset, entry, poison, stray || beyond⟩] }
  let detail := entry.toNat + offset.toNat * 2 ^ 4
  if stray then raise c 0x08 7 detail t else if beyond then raise c 0x09 7 detail t else t

/-- Why a buffered word does not land in a beat: nothing declared or a bank it may not write, or a slot or L-slot that denies
it (R53, R54, R201). -/
inductive LandChance | yes | no | denied
  deriving DecidableEq, Repr

def landChance (held : Bool) (t : Tile) (w : LandWord) : LandChance :=
  let n := landTarget t w.entry
  let e := getEntry t n
  let bank := e.bank
  if w.faulted || bank = activeBank t || ((getEntry t w.entry).paired && e.valid) then .no
  else if held then .yes
  else if !bitAt bank.toNat t.beat.windows.toNat then .no
  else if t.beat.acc.any (fun a => a.bank == bank) || t.beat.named.any (fun a => sameTarget t w.entry a) then .denied
  else .yes

/-- The oldest buffered word of each bank, oldest first. -/
def oldestPerBank (t : Tile) : List LandWord :=
  (t.land.foldl (fun (acc : List (LandWord × BitVec 4)) w =>
    let b := (getEntry t (landTarget t w.entry)).bank
    if w.faulted || acc.any (fun e => e.2 == b) then acc else acc ++ [(w, b)]) []).map (·.1)

/-- A word lands (R45, R50). -/
def landWord (c : BeatCtx) (held : Bool) (w : LandWord) (t : Tile) : Tile :=
  let n := landTarget t w.entry
  let e := getEntry t n
  let received := e.received + 1
  let full := received == e.length
  let e' : ScoreEntry := { e with
    received := received, poison := e.poison || w.poison, valid := e.valid || full
    fills := if full then e.fills + 1 else e.fills, lastFill := if full then BitVec.ofNat 32 c.wBeat else e.lastFill }
  let t := putWord e.bank (e.base + w.offset) ⟨w.data, w.poison⟩ t
  let t := putEntry t n e'
  { t with land := t.land.filter (· ≠ w)
           beat := { t.beat with landBank := some e.bank }
           counts := { t.counts with landed := t.counts.landed + 1
                                     heldLand := if held then t.counts.heldLand + 1 else t.counts.heldLand } }

/-- The landing of a beat: at most one word, and the deferrals of R54. -/
def landStep (c : BeatCtx) (held : Bool) (t : Tile) : Tile :=
  let cands := oldestPerBank t
  let deferred := (cands.filter fun w => landChance held t w == .denied).length
  let t' := match cands.find? (fun w => landChance held t w == .yes) with
    | some w => landWord c held w t
    | none => t
  { t' with counts := { t'.counts with deferred := t'.counts.deferred + BitVec.ofNat 32 deferred } }

/-! ## Hold requests (Table 7-7) -/

/-- Codes of the requests a tile is making. -/
def tileRequests (t : Tile) : List Nat :=
  (if t.hold.gates.isEmpty then [] else [1]) ++ (if t.push.sWords.isEmpty then [] else [2])
  ++ (if t.push.kWords.isEmpty then [] else [3]) ++ (if t.hold.waits.isEmpty then [] else [4])
  ++ (if t.hold.drain then [5] else [])

/-- R210: the local waits tested again; a lock takes the knot in the beat that meets it. -/
def retestWaits (c : BeatCtx) (t : Tile) : Tile :=
  t.hold.waits.foldl (fun t w =>
    if w.viaHandle then { t with hold := { t.hold with waits := t.hold.waits ++ [w] } }
    else
      let (kn, r) := knotApply w.op.toNat w.n.toNat (tileUser c) (getKnot t w.k)
      let t := { t with knots := sPut {} w.k.toNat kn t.knots }
      if r.status ≠ 0 then raise c (knotFault r.status) 6 w.k.toNat t
      else if r.met then t
      else { t with hold := { t.hold with waits := t.hold.waits ++ [w] } }) { t with hold := { t.hold with waits := [] } }

/-- Gates tested again after the landing of a W-beat (R208). -/
def retestGates (t : Tile) : Tile :=
  { t with hold := { t.hold with gates := t.hold.gates.filter fun e => !(getEntry t e).valid } }

/-- R47: the gates of the word in progress. -/
def testGates (t : Tile) : Tile :=
  { t with hold := { t.hold with gates := t.hold.gates ++ t.beat.gates.filter fun e => !(getEntry t e).valid } }

def drainHigh (t : Tile) : Tile := { t with hold := { t.hold with drain := 8 ≤ t.drain.buf.length } }

end Sys2Proof.Machine
end

