-- ==== Sys2Proof/Machine/TileBeat.lean ====
section
/-! DEFINITION. One beat of one tile: issue, the slots of its word, what lands at its end, and hoop changes (03, 04). -/

namespace Sys2Proof.Machine

/-! ## Hoop geometry (R106, R110, R131) -/

/-- A hoop table entry's head column and row. -/
def entryHead (e : W64) : Nat × Nat := (bits 9 0 e.toNat, bits 25 16 e.toNat)

def entryValid (e : W64) : Bool := bitAt 63 e.toNat

/-- The hoop registers of tile (x, y) for entry `k` of its table (Table 4-5). An entry that is not valid parks it. -/
def hoopFor (x y : BitVec 10) (k : BitVec 3) (h : HoopState) : HoopState :=
  let e := sGet 0 k.toNat h.table
  if !entryValid e then { h with index := k, parked := true, source := 3, next := none }
  else
    let (hx, hy) := entryHead e
    let i := y.toNat - hy
    let j := x.toNat - hx
    let b := (x.toNat / 512 - hx / 512) + (y.toNat / 256 - hy / 256)
    { h with index := k, parked := false, row := BitVec.ofNat 10 i, col := BitVec.ofNat 10 j
             source := if j ≠ 0 then 1 else if i ≠ 0 then 2 else 0
             bottom := i == bits 41 32 e.toNat, west := j == 0, top := i == 0
             offset := BitVec.ofNat 12 (i + j + 4 * b), next := none }

def noLoops (i : IssueState) : IssueState :=
  { i with loop0 := { i.loop0 with active := false, remaining := 0 }, loop1 := { i.loop1 with active := false, remaining := 0 } }

/-- A word address of the active half. -/
def addrOf (half : Bool) (ix : BitVec 6) : BitVec 7 := (BitVec.ofBool half ++ ix).setWidth 7

/-- R111 to R113: a selected entry takes effect at the end of the beat. -/
def switchHoop (c : BeatCtx) (t : Tile) : Tile :=
  match t.hoop.next with
  | none => t
  | some k =>
    let was := tileIsHead t
    let h := hoopFor c.x c.y k t.hoop
    let e := (sGet 0 k.toNat t.hoop.table).toNat
    let t := { t with hoop := { h with switches := satAdd 16 h.switches 1 }, arr := closeGroup t.arr }
    let start := addrOf t.issue.half (BitVec.ofNat 6 (bits 15 10 e))
    if tileIsHead t then
      if was && bitAt 26 e then t
      else { t with issue := { t.issue with nextAddr := start, ended := false, endRaised := false } }
    else { t with issue := { noLoops t.issue with delayLeft := 0, brTaken := false, idleLeft := 0 } }

/-! ## Issue (R71, R91 to R100) -/

def curLoopEnd (i : IssueState) (ix : BitVec 6) : Bool := (i.loop0.active && i.loop0.stop == ix) || (i.loop1.active && i.loop1.stop == ix)

/-- The levels, inner first. -/
def innerFirst (i : IssueState) : List (Bool × LoopLevel) :=
  if i.oneInner then [(true, i.loop1), (false, i.loop0)] else [(false, i.loop0), (true, i.loop1)]

def putLoop (one : Bool) (l : LoopLevel) (i : IssueState) : IssueState :=
  if one then { i with loop1 := l } else { i with loop0 := l }

/-- R96, R97 at the word `ix` that has issued: the loop state after it, and the back edge it takes. -/
def loopEdges (ix : BitVec 6) : List (Bool × LoopLevel) → IssueState → IssueState × Option (BitVec 6)
  | [], i => (i, none)
  | (one, l) :: r, i =>
    if l.active && l.stop == ix then
      if 1 < l.remaining.toNat then (putLoop one { l with remaining := l.remaining - 1 } i, some l.start)
      else loopEdges ix r (putLoop one { l with remaining := 0, active := false } i)
    else if l.active then (i, none)
    else loopEdges ix r i

/-- The address after the word at `curAddr`, where no branch resolves (R93, R96). -/
def nextSequential (i : IssueState) : IssueState :=
  let ix : BitVec 6 := i.curAddr.setWidth 6
  let (i, edge) := loopEdges ix (innerFirst i) i
  match edge with
  | some s => { i with nextAddr := addrOf i.half s }
  | none => if ix = 63 then { i with nextAddr := i.curAddr, ended := true } else { i with nextAddr := i.curAddr + 1 }

/-- What `next_addr` shows after a stop word: the next index, or index 63 (log 105). -/
def afterStop (a : BitVec 7) : BitVec 7 := if (a.setWidth 6 : BitVec 6) = 63 then a else a + 1

/-- R98: loops whose body a taken branch leaves, and the loops inside them, end. -/
def endLoopsAt (target : BitVec 6) (i : IssueState) : IssueState :=
  let outside (l : LoopLevel) : Bool := l.active && !(l.start.toNat ≤ target.toNat && target.toNat ≤ l.stop.toNat)
  match innerFirst i with
  | [(a, l), (b, m)] =>
    let i := if l.active && (outside l || outside m) then putLoop a { l with active := false, remaining := 0 } i else i
    if outside m then putLoop b { m with active := false, remaining := 0 } i else i
  | _ => i

/-- R91, R99: the branch in flight after its second delay slot. -/
def resolveBranch (i : IssueState) : IssueState :=
  if !i.brTaken then i
  else if i.brSwap then
    { noLoops i with half := !i.half, nextAddr := addrOf (!i.half) i.brTarget, ended := false, endRaised := false, brSwap := false }
  else { endLoopsAt i.brTarget i with nextAddr := addrOf i.half i.brTarget, ended := false, endRaised := false }

/-- The issue state after a beat of the head. -/
def advanceIssue (t : Tile) : Tile :=
  let i := t.issue
  let i :=
    if t.beat.issued && i.idleLeft = 0 then (if i.stopped then { i with nextAddr := afterStop i.curAddr } else nextSequential i)
    else i
  let i :=
    if t.beat.inDelay then
      let left := i.delayLeft - 1
      if left = 0 then resolveBranch { i with delayLeft := 0 } else { i with delayLeft := left }
    else i
  { t with issue := i }

/-- A word of a reserved kind, or an idle word with other bits (R71, R72). -/
def illegalWord (w : W128) : Bool :=
  let hdr := bits 127 124 w.toNat
  2 < hdr || (hdr == 1 && bits 123 8 w.toNat ≠ 0)

/-- Every tile that takes an illegal word raises `illegal_word`, executes no slot of it, and drives it on as it is (R71, R72,
R108; log 12). -/
def raiseIllegalWord (c : BeatCtx) (w : W128) (t : Tile) : Tile :=
  raise c 0x01 0 (bits 127 124 w.toNat) { t with beat := { t.beat with word := w } }

/-- R93: `end_of_half`; the word that is not issued has no address of seven bits (log 103). -/
def raiseEnd (c : BeatCtx) (t : Tile) : Tile :=
  recordFault { faultOf c t 0x0A 0 0 true with wordAddr := Config.endAddr (bitAt 6 t.issue.curAddr.toNat) c.sBeat } t

/-- A word that the head issues at `curAddr` (R71, R92): the word its slots execute, and what it drives on (R59). -/
def issueWord (c : BeatCtx) (w : W128) (t : Tile) : Tile × W128 × Option W128 :=
  let hdr := bits 127 124 w.toNat
  let idle := hdr == 1 && bits 123 8 w.toNat == 0
  let n := BitVec.ofNat 8 (bits 7 0 w.toNat)
  let delay := t.beat.inDelay
  let atEnd := curLoopEnd t.issue (t.issue.curAddr.setWidth 6) && !(idle && !delay && n ≠ 0)
  let t := { t with beat := { t.beat with issued := true, word := w, loopEnd := atEnd, idle := idle } }
  if hdr = 0 then (t, w, some w)
  else if illegalWord w then (raiseIllegalWord c w t, 0, some w)
  else if hdr = 1 then
    if delay then (raise c 0x0B 0 t.issue.brAddr.toNat t, 0, some 0)
    else ({ t with issue := { t.issue with idleLeft := n } }, 0, some 0)
  else
    if delay then (raise c 0x0B 0 t.issue.brAddr.toNat t, w, some w)
    else ({ t with issue := { noLoops t.issue with stopped := true } }, w, some w)

/-- What the head issues in a beat. -/
def headIssue (c : BeatCtx) (t : Tile) : Tile × W128 × Option W128 :=
  let i := t.issue
  if t.beat.pre.isSome then (t, 0, t.beat.pre)
  else if i.stopped then (t, 0, none)
  else if i.idleLeft ≠ 0 then
    let left := i.idleLeft - 1
    let atEnd := left == 0 && curLoopEnd i (i.curAddr.setWidth 6)
    ({ t with issue := { i with idleLeft := left }, beat := { t.beat with issued := true, idle := true, loopEnd := atEnd } }, 0, some 0)
  else if i.ended then
    let t := if i.endRaised then t else raiseEnd c t
    ({ t with issue := { t.issue with endRaised := true } }, 0, none)
  else
    let ix : BitVec 6 := i.nextAddr.setWidth 6
    let bank := activeBank t
    let row : BitVec 7 := ix ++ (0 : BitVec 1)
    let w : W128 := (getWord t bank (row ||| 1)).data ++ (getWord t bank row).data
    let t := { t with issue := { i with curAddr := i.nextAddr }, beat := { t.beat with word := w } }
    issueWord c w (checkGated c 0 bank row.toNat 2 t)

/-- R107 to R109: the word a tile executes in a beat, and what it drives on in the next. -/
def acquire (c : BeatCtx) (t : Tile) : Tile × W128 × Option W128 :=
  let member (w : Option W128) : Tile × W128 × Option W128 :=
    match w with
    | some w => if illegalWord w then (raiseIllegalWord c w t, 0, some w) else (t, w, some w)
    | none => ({ t with hoop := { t.hoop with emptyBeats := t.hoop.emptyBeats + 1 } }, 0, none)
  if t.hoop.parked then (t, 0, none)
  else match t.hoop.source.toNat with
  | 0 => headIssue c t
  | 1 => member c.west.word
  | 2 => member c.north.word
  | _ => (t, 0, none)

/-! ## The word -/

/-- A beat begins. What commands of this beat have already done in it stands. -/
def beginBeat (t : Tile) : Tile :=
  { t with beat := { t.beat with isHead := tileIsHead t, inDelay := tileIsHead t && t.issue.delayLeft ≠ 0 && !t.beat.branch } }

/-- All slots of a word, in the order S, V, M, L, T, K (R70). -/
def runSlots (c : BeatCtx) (w : W128) (t : Tile) : Tile :=
  if w = 0 then t
  else
    let t := { t with beat := { t.beat with word := w } }
    let t := sSlot c (slotField 1 w) t
    let t := vSlot c (slotField 2 w) t
    let t := mSlot c (slotField 3 w) t
    let t := lSlot c (slotField 4 w) t
    let t := tSlot c (slotField 5 w) t
    kSlot c (slotField 6 w) t

/-! ## The end of a beat -/

/-- R75: the pointers after the word; a set discards the increments of its pointer. -/
def applyPtrOps (ops : List PtrOp) (t : Tile) : Tile :=
  ops.foldl (fun t o =>
    match o.set with
    | some p => { t with p := sPut {} o.ptr.toNat p t.p }
    | none =>
      if ops.any (fun q => q.ptr == o.ptr && q.set.isSome) then t
      else { t with p := sUpd {} o.ptr.toNat ptrStep t.p }) t

def applyBoardOp (t : Tile) : BoardOp → Tile
  | .arm n e => let o := getEntry t n; putEntry t n { e with fills := o.fills, lastFill := o.lastFill }
  | .release n => putEntry t n { getEntry t n with received := 0, valid := false, poison := false }
  | .flip n =>
    let a := getEntry t n
    let b := getEntry t (n ^^^ 1)
    putEntry (putEntry t n { a with inUse := b.inUse }) (n ^^^ 1) { b with inUse := a.inUse }

/-- A result in flight written to its destination (R86, R87, R215). -/
def landFlight (t : Tile) (f : Flight) : Tile :=
  let t := match f.target with
    | .scalar => { t with s := sPut {} f.reg.toNat ⟨f.value.setWidth 32, f.poison⟩ t.s }
    | .mask => { t with m := sPut {} f.reg.toNat ⟨f.value.setWidth 16, f.poison⟩ t.m }
    | .vector =>
      let o := getV t (f.reg.setWidth 3)
      let new : Pz 128 := ⟨(o.data &&& ~~~f.bits) ||| (f.value &&& f.bits), f.poison || (f.part && o.poison)⟩
      let t := { t with v := sPut {} f.reg.toNat new t.v }
      if f.pair then { t with v := sPut {} (f.reg.toNat + 1) ⟨f.aux, f.poison⟩ t.v } else t
  let t := if f.sat = 0 then t else countSat f.sat t
  if f.nan = 0 then t else countNanNarrow f.nan t

/-- The results of one kind that are due land, in order of execution. -/
def landFlights (c : BeatCtx) (which : Flight → Bool) (t : Tile) : Tile :=
  let due (f : Flight) : Bool := which f && f.due ≤ c.sBeat + 1
  (t.flights.filter due).foldl landFlight { t with flights := t.flights.filter fun f => !due f }

/-- R94: the pending mode comes into force. -/
def landMode (c : BeatCtx) (t : Tile) : Tile :=
  match t.mode.due with
  | some d => if d ≤ c.sBeat + 1 then { t with mode := { cur := t.mode.pend, pend := {}, due := none } } else t
  | none => t

/-- Issue-trace entry (Table 3-18). -/
def traceWord (t : Tile) (loopBack : Bool) : W16 :=
  BitVec.ofNat 16 (t.issue.curAddr.toNat + b2n t.beat.branched * 2 ^ 7 + b2n t.beat.loopEnd * 2 ^ 8 + b2n loopBack * 2 ^ 9
    + b2n t.beat.idle * 2 ^ 10 + 2 ^ 11)

/-- The word at the loop's end takes a back edge. -/
def takesBack (i : IssueState) (atEnd : Bool) : Bool :=
  atEnd && (loopEdges (i.curAddr.setWidth 6) (innerFirst i) i).2.isSome

def isBranchWord (w : W128) : Bool :=
  let op := bits 123 118 w.toNat
  0x28 ≤ op && op ≤ 0x2C

/-- Bytes of the banks as the window lays them out. -/
def bankBytes (t : Tile) (o n : Nat) : Bytes :=
  let words := (List.range ((o + n + 7) / 8 - o / 8)).flatMap fun i => leBytes 8 (sGet {} (o / 8 + i) t.banks : Pz 64).data.toNat
  (words.drop (o % 8)).take n

/-- R66: window reads of banks without a slot access or a landing in this beat are served. -/
def serveReads (t : Tile) : Tile :=
  let free (r : WindowRead) : Bool :=
    let b : BitVec 4 := BitVec.ofNat 4 (r.offset.toNat / 1024)
    !(t.beat.acc.any fun a => a.bank == b) && t.beat.landBank ≠ some b
  { t with reads := t.reads.map fun r =>
      if r.data.isNone && free r then { r with data := some (bankBytes t r.offset.toNat r.size) } else r }

/-- What a tile drives, with what it drove before, newest first; a tile that has driven nothing keeps nothing. -/
def keepOutputs (o : TileOut) (before : List TileOut) : List TileOut :=
  let l := (o :: before).take 5
  if l.all fun o => o = {} then [] else l

/-- Everything that takes effect at the end of an executed beat. -/
def endBeat (c : BeatCtx) (driven : Option W128) (t : Tile) : Tile :=
  let t := if t.beat.issued then { t with trace := sPut 0 (c.sBeat % 256) (traceWord t t.beat.loopBack) t.trace } else t
  let t := if t.beat.isHead then advanceIssue t else t
  let t := applyPtrOps t.beat.ptrOps t
  let t := t.beat.boardOps.foldl applyBoardOp t
  let t := landFlights c (fun _ => true) t
  let t := landMode c t
  let t := retirePipe c t
  let t := serveReads t
  let t := { t with outHist := keepOutputs { t.beat.out with word := driven } t.outHist
                    beat := { brHist1 := isBranchWord t.beat.word, brHist2 := t.beat.brHist1 } }
  switchHoop c t

/-- One executing W-beat of a tile of the partition (R207), up to the gates of its word. -/
def tileBeat (c : BeatCtx) (t : Tile) : Tile :=
  let t := beginBeat t
  let (t, w, driven) := acquire c t
  let t := { t with beat := { t.beat with word := if t.beat.pre.isSome then t.beat.word else w, loopBack := takesBack t.issue t.beat.loopEnd } }
  let t := landAccumulations c t
  let t := runSlots c w t
  let t := formOutputs c t
  let t := landStep c false t
  endBeat c driven (testGates t)

/-- One held W-beat of a tile (R213): a landing, unless the partition stands frozen after a fault (R56), and the pending pushes
tried again. -/
def tileHeldBeat (frozen : Bool) (c : BeatCtx) (t : Tile) : Tile :=
  let r := t.reads.map fun r => if r.data.isNone then { r with data := some (bankBytes t r.offset.toNat r.size) } else r
  let t := { t with reads := r }
  let t := retryPushes (if frozen then t else landStep c true t)
  { t with beat := { t.beat with landBank := none } }

/-- The start of a step in a tile (Table 9-2, R114, R117, R150, R157, R164, R183, R203): `entry` is the image's `entry_addr`, whose
half becomes the active one in every tile (log 19). -/
def tileStepStart (entry : BitVec 7) (partSeed counter : W64) (x y : BitVec 10) (t : Tile) : Tile :=
  { t with
    hoop := hoopFor x y 0 { t.hoop with next := none }
    arr := closeGroup t.arr
    num := stepNum partSeed counter x y t.num
    drain := { t.drain with seq := [] }
    issue := { noLoops t.issue with
      half := entry.getLsbD 6, nextAddr := entry, stopped := false, ended := false, endRaised := false, idleLeft := 0, delayLeft := 0 } }

end Sys2Proof.Machine
end

