-- ==== Sys2Proof/Machine/TileWindow.lean ====
section
/-! DEFINITION. The tile window (02 R63 to R68, 03 Tables 3-14 to 3-18, 04 Tables 4-4 to 4-6, 05 Tables 5-6 and 5-7,
06 Tables 6-5 and 6-6). -/

namespace Sys2Proof.Machine

def n64 (n : Nat) : W64 := BitVec.ofNat 64 n

/-- Die of a tile (R13). -/
def dieOf (x y : Nat) : Nat := y / 256 * 2 + x / 512

/-- Global quadrant of a tile (R14). -/
def quadOf (x y : Nat) : Nat := dieOf x y * 4 + y % 256 / 128 * 2 + x % 512 / 256

/-- The quadrant is an outer one of its die (01, Die positions). -/
def outerQuad (g : Nat) : Bool := g % 2 == (if g / 4 % 2 = 0 then 0 else 1)

/-- Scoreboard entry word 0 (Table 2-3). -/
def entryWord (e : ScoreEntry) : W64 :=
  n64 (e.bank.toNat + e.base.toNat * 2 ^ 8 + e.length.toNat * 2 ^ 16 + b2n e.paired * 2 ^ 24 + b2n e.inUse * 2 ^ 25
    + e.received.toNat * 2 ^ 32 + b2n e.poison * 2 ^ 61 + b2n e.valid * 2 ^ 62 + b2n e.armed * 2 ^ 63)

def landWindowWord (t : Tile) (i j : Nat) : W64 :=
  match t.land.findIdx? (fun w => w.slot.toNat == i) with
  | none => 0
  | some age =>
    match t.land[age]? with
    | none => 0
    | some w =>
      if j = 0 then w.data
      else if j = 1 then n64 (w.offset.toNat + w.entry.toNat * 2 ^ 8 + age * 2 ^ 16 + b2n w.poison * 2 ^ 62 + 2 ^ 63)
      else 0

/-- Table 2-9. -/
def idWord (part : Nat) (x y : Nat) (t : Tile) : W64 :=
  let g := quadOf x y
  n64 (x + y * 2 ^ 16 + dieOf x y * 2 ^ 32 + g % 4 * 2 ^ 35 + part * 2 ^ 40 + b2n (outerQuad g) * 2 ^ 48 + b2n t.repaired * 2 ^ 49)

def maskOf (n : Nat) (f : Nat → Bool) : Nat := (List.range n).foldl (fun a i => if f i then a + 2 ^ i else a) 0

def tileStateWord (exec : Nat) (t : Tile) : W64 :=
  n64 (exec + b2n t.issue.half * 2 ^ 4 + t.land.length * 2 ^ 8
    + maskOf 16 (fun i => (sGet {} i t.board).armed) * 2 ^ 16 + maskOf 16 (fun i => (sGet {} i t.board).valid) * 2 ^ 32)

def modeBits (m : Mode) : Nat := m.mfmt.toNat + m.rmode.toNat * 8 + m.srBits.toNat * 32

/-- Table 3-15; with no branch in flight its outcome and target read as at reset (log 105). -/
def issueStateWord (t : Tile) : W64 :=
  let i := t.issue
  let flight := i.delayLeft ≠ 0
  n64 (i.nextAddr.toNat + b2n (tileIsHead t) * 2 ^ 8 + i.delayLeft.toNat * 2 ^ 9 + b2n (flight && i.brTaken) * 2 ^ 11
    + (if flight then i.brTarget.toNat else 0) * 2 ^ 12 + b2n i.stopped * 2 ^ 18 + i.idleLeft.toNat * 2 ^ 20)

def modeStateWord (sBeat : Nat) (t : Tile) : W64 :=
  n64 (modeBits t.mode.cur +
    match t.mode.due with
    | none => 0
    | some d => 2 ^ 10 + t.mode.pend.mfmt.toNat * 2 ^ 11 + t.mode.pend.rmode.toNat * 2 ^ 14
        + t.mode.pend.srBits.toNat * 2 ^ 16 + min 2 (d - sBeat) * 2 ^ 21)

def loopWord (l : LoopLevel) : W64 :=
  n64 (l.remaining.toNat + l.start.toNat * 2 ^ 32 + l.stop.toNat * 2 ^ 38 + b2n l.active * 2 ^ 44)

def pushStateWord (t : Tile) : W64 :=
  n64 (b2n (!t.push.sWords.isEmpty) + t.push.sHandle.toNat * 2 + b2n (!t.push.kWords.isEmpty) * 2 ^ 4
    + t.push.kHandle.toNat * 2 ^ 5 + t.push.pushHolds.toNat * 2 ^ 16)

/-- Table 3-17, word `i` of the record. -/
def faultWord (r : FaultRec) (i : Nat) : W64 :=
  match i with
  | 0 => n64 (r.code.toNat + r.slot.toNat * 2 ^ 8 + b2n r.valid * 2 ^ 11 + b2n r.branchPending * 2 ^ 12
      + b2n r.branchTaken * 2 ^ 13 + b2n r.modePending * 2 ^ 14 + b2n r.loopEnd * 2 ^ 15 + b2n r.loopBack * 2 ^ 16
      + b2n r.addrValid * 2 ^ 17 + b2n r.head * 2 ^ 18 + r.wordAddr.toNat * 2 ^ 19 + r.issueOffset.toNat * 2 ^ 26
      + modeBits r.modeAt * 2 ^ 38 + r.later.toNat * 2 ^ 48)
  | 1 => r.sBeat
  | 2 => r.wBeat
  | 3 => n64 (r.headX.toNat + r.headY.toNat * 2 ^ 16 + r.detail.toNat * 2 ^ 32)
  | 4 => r.word.setWidth 64
  | _ => (r.word >>> 64).setWidth 64

/-- Table 4-5. -/
def hoopStateWord (h : HoopState) : W64 :=
  n64 (h.index.toNat + b2n h.parked * 2 ^ 3 + h.row.toNat * 2 ^ 8 + h.col.toNat * 2 ^ 20 + h.source.toNat * 2 ^ 32
    + b2n h.bottom * 2 ^ 34 + b2n h.west * 2 ^ 35 + b2n h.top * 2 ^ 36 + h.offset.toNat * 2 ^ 40)

def arrayStateWord (a : ArrayState) : W64 :=
  n64 (a.phase.toNat + a.groupMfmt.toNat * 2 ^ 3 + a.groupStat.toNat * 2 ^ 6 + a.fp6.toNat * 2 ^ 8 + b2n a.inGroup * 2 ^ 10
    + a.loadShifts.toNat * 2 ^ 16)

/-- Table 4-6. -/
def pipeWord (sBeat : Nat) (f : MFlight) (j : Nat) : W64 :=
  if j = 0 then
    n64 (1 + bits 2 0 f.op.toNat * 2 + f.stat.toNat * 2 ^ 4 + f.phase.toNat * 2 ^ 6 + f.mfmt.toNat * 2 ^ 9
      + (sBeat - f.exec) % 16 * 2 ^ 12 + f.position.toNat * 2 ^ 16 + b2n (f.bank == 7) * 2 ^ 18 + f.row.toNat * 2 ^ 19
      + b2n f.accum * 2 ^ 25 + b2n f.zero * 2 ^ 26 + f.exec % 2 ^ 32 * 2 ^ 32)
  else f.value.setWidth 64

/-- Table 6-6. -/
def vecPipeWord (sBeat : Nat) (f : Flight) (j : Nat) : W64 :=
  let seen := f.exec < sBeat
  match j with
  | 0 => n64 (1 + f.op.toNat * 2 + bits 2 0 f.reg.toNat * 2 ^ 8 + f.ty.toNat * 2 ^ 11 + (sBeat - f.exec) % 8 * 2 ^ 14
      + (f.due - f.exec) % 8 * 2 ^ 17 + b2n (f.target == .mask) * 2 ^ 20 + b2n f.pair * 2 ^ 21 + b2n f.part * 2 ^ 22
      + f.exec % 2 ^ 32 * 2 ^ 32)
  | 1 => if seen then f.value.setWidth 64 else 0
  | 2 => if seen then (f.value >>> 64).setWidth 64 else 0
  | 3 => f.aux.setWidth 64
  | _ => (f.aux >>> 64).setWidth 64

def two32 (lo hi : W32) : W64 := hi ++ lo

/-- The matrix entries the window shows (R132). -/
def shownPipe (a : ArrayState) : List MFlight := a.pipe.filter fun f => f.op ≠ 4

/-- A 64-bit word of the window at an offset that is a multiple of 8 (Table 2-8). -/
def tileWindowWord (exec part sBeat x y : Nat) (t : Tile) (o : Nat) : W64 :=
  let ix (base : Nat) : Nat := (o - base) / 8
  if o < 0x2800 then (sGet {} (o / 8) t.banks : Pz 64).data
  else if o < 0x2900 then
    let e := sGet {} ((o - 0x2800) / 16) t.board
    if ix 0x2800 % 2 = 0 then entryWord e else two32 e.fills e.lastFill
  else if o < 0x2980 then landWindowWord t ((o - 0x2900) / 32) (ix 0x2900 % 4)
  else if 0x2A00 ≤ o && o < 0x2A40 then knotWord (sGet {} (ix 0x2A00) t.knots)
  else if 0x2B00 ≤ o && o < 0x2BA0 then
    let b := (o - 0x2B00) / 16
    n64 (maskOf 64 fun i => (sGet {} (b * 128 + ix 0x2B00 % 2 * 64 + i) t.banks : Pz 64).poison)
  else if o = 0x2C00 then idWord part x y t
  else if o = 0x2C08 then tileStateWord exec t
  else if o = 0x2C10 then two32 t.counts.landed t.counts.deferred
  else if o = 0x2C18 then n64 (t.counts.refused.toNat + t.counts.timeouts.toNat * 2 ^ 16 + t.counts.heldLand.toNat * 2 ^ 32)
  else if o = 0x3000 then issueStateWord t
  else if o = 0x3008 then modeStateWord sBeat t
  else if o = 0x3010 then loopWord t.issue.loop0
  else if o = 0x3018 then loopWord t.issue.loop1
  else if o = 0x3020 then pushStateWord t
  else if o = 0x3028 then n64 ((List.range 4).foldl (fun a i => a + (getM t (BitVec.ofNat 2 i)).data.toNat * 2 ^ (16 * i)) 0)
  else if o = 0x3030 then t.push.sValue
  else if o = 0x3038 then t.push.kValue
  else if o < 0x3000 then 0
  else if o < 0x3080 then
    let r := ix 0x3040 * 2
    two32 (getS t (BitVec.ofNat 4 r)).data (getS t (BitVec.ofNat 4 (r + 1))).data
  else if o < 0x30C0 then (ptrWord (getP t (BitVec.ofNat 3 (ix 0x3080)))).setWidth 64
  else if o < 0x3100 then getH t (BitVec.ofNat 3 (ix 0x30C0))
  else if o < 0x3180 then ((getV t (BitVec.ofNat 3 (ix 0x3100 / 2))).data >>> (64 * (ix 0x3100 % 2))).setWidth 64
  else if 0x31C0 ≤ o && o < 0x31F0 then faultWord t.fault (ix 0x31C0)
  else if 0x3200 ≤ o && o < 0x3400 then
    n64 ((List.range 4).foldl (fun a i => a + (sGet 0 (ix 0x3200 * 4 + i) t.trace).toNat * 2 ^ (16 * i)) 0)
  else if o = 0x3400 then hoopStateWord t.hoop
  else if o = 0x3408 then n64 (t.hoop.emptyBeats.toNat + t.hoop.switches.toNat * 2 ^ 32)
  else if 0x3410 ≤ o && o < 0x3450 then sGet 0 (ix 0x3410) t.hoop.table
  else if 0x3480 ≤ o && o < 0x34A0 then (sGet {} (ix 0x3480) t.arr.stat : Pz 64).data
  else if o = 0x34A0 || o = 0x34A8 then
    let i := ix 0x34A0 * 2
    two32 (sGet {} i t.arr.acc : Pz 32).data (sGet {} (i + 1) t.arr.acc : Pz 32).data
  else if o = 0x34B0 then arrayStateWord t.arr
  else if 0x3500 ≤ o && o < 0x3600 then
    match (shownPipe t.arr)[(o - 0x3500) / 16]? with
    | some f => pipeWord sBeat f (ix 0x3500 % 2)
    | none => 0
  else if 0x3800 ≤ o && o < 0x3E00 then n64 (ofLe ((List.range 8).map fun i => sGet 0 (o - 0x3800 + i) t.num.picot))
  else if o = 0x3E00 then two32 (sGet 0 0 t.num.pdesc) (sGet 0 1 t.num.pdesc)
  else if o = 0x3E08 then
    two32 (sGet 0 2 t.num.pdesc) (BitVec.ofNat 32 (t.num.emptyRow.toNat + t.num.below.toNat * 2 ^ 16 + t.num.above.toNat * 2 ^ 24))
  else if 0x3E10 ≤ o && o < 0x3F00 then
    match (t.flights.filter fun f => f.unit == 1)[(o - 0x3E10) / 40]? with
    | some f => vecPipeWord sBeat f (ix 0x3E10 % 5)
    | none => 0
  else if o = 0x3F00 then n64 (t.num.satCount.toNat + t.num.t2Invalid.toNat * 2 ^ 32 + t.num.nanNarrow.toNat * 2 ^ 48)
  else if o = 0x3F08 then n64 (t.num.mscaleRange.toNat + t.num.scaleNan.toNat * 2 ^ 16)
  else if o = 0x3F10 then n64 (t.num.satLimit.toNat + b2n t.num.rescale * 2 ^ 32)
  else if o = 0x3F18 then t.num.amaxCfg.setWidth 64
  else if 0x3F20 ≤ o && o < 0x3F40 then
    n64 ((sGet 0 (ix 0x3F20) t.num.amaxValue).toNat + b2n (bitAt (ix 0x3F20) t.num.amaxNan.toNat) * 2 ^ 32)
  else if o = 0x3F40 then n64 ((List.range 8).foldl (fun a i => a + (getCursor t (BitVec.ofNat 3 i)).toNat * 2 ^ (8 * i)) 0)
  else if 0x3F80 ≤ o && o < 0x3FC0 then getSr t (ix 0x3F80)
  else 0

/-- R64: 4 or 8 bytes, or consecutive 8-byte accesses, as bytes. -/
def tileWindowBytes (exec part sBeat x y : Nat) (t : Tile) (o n : Nat) : Bytes :=
  let first := o / 8
  let words := (List.range ((o + n + 7) / 8 - first)).flatMap fun i => leBytes 8 (tileWindowWord exec part sBeat x y t ((first + i) * 8)).toNat
  (words.drop (o % 8)).take n

/-! ## Writes (R67) -/

inductive WindowWrite | done | busy | rangeInvalid
  deriving DecidableEq, Repr

def refuseWrite (t : Tile) : Tile := { t with counts := { t.counts with refused := satAdd 16 t.counts.refused 1 } }

/-- A write of the RW fields of entry word 0 while the tile is not executing (R43, R44, R67). -/
def writeEntry (n : BitVec 4) (v : W64) (t : Tile) : Tile × WindowWrite :=
  let o := getEntry t n
  let w := v.toNat
  if bits 39 32 w ≠ 0 || bits 62 61 w ≠ 0 then (refuseWrite t, .busy)
  else
    let e : ScoreEntry := { bank := BitVec.ofNat 4 (bits 3 0 w), base := BitVec.ofNat 7 (bits 14 8 w)
                            length := BitVec.ofNat 8 (bits 23 16 w), paired := bitAt 24 w, inUse := bitAt 25 w
                            armed := bitAt 63 w, fills := o.fills, lastFill := o.lastFill }
    if e.armed && !armLegal t n e.bank.toNat e.base.toNat e.length.toNat e.paired e.inUse then (refuseWrite t, .rangeInvalid)
    else (putEntry t n e, .done)

/-- A write of the bits `mask` of the window word at `o`, while the tile is not executing. Read-only and reserved places
discard it; a knot and the active half refuse it (R42, R62). -/
def tileWriteWord (x y o : Nat) (v mask : W64) (t : Tile) : Tile × WindowWrite :=
  let ix (base : Nat) : Nat := (o - base) / 8
  let old := tileWindowWord 0 0 0 x y t o
  let new : W64 := (old &&& ~~~mask) ||| (v &&& mask)
  let lo : W32 := new.setWidth 32
  let hi : W32 := (new >>> 32).setWidth 32
  let loSet := mask.setWidth 32 ≠ (0 : W32)
  let hiSet := (mask >>> 32).setWidth 32 ≠ (0 : W32)
  let ok (t : Tile) : Tile × WindowWrite := (t, .done)
  if o < 0x2800 then
    if o / 1024 = (activeBank t).toNat then (refuseWrite t, .busy)
    else ok { t with banks := sPut {} (o / 8) ⟨new, false⟩ t.banks }
  else if o < 0x2900 then
    if ix 0x2800 % 2 = 0 then
      let n := BitVec.ofNat 4 ((o - 0x2800) / 16)
      let e := getEntry t n
      let keep : W64 := entryWord { e with received := 0, poison := false, valid := false }
      writeEntry n ((keep &&& ~~~mask) ||| (v &&& mask)) t
    else ok t
  else if 0x2A00 ≤ o && o < 0x2A40 then (refuseWrite t, .busy)
  else if o = 0x3028 then
    ok { t with m := (List.range 4).foldl (fun m i => sPut {} i ⟨BitVec.ofNat 16 (element 16 i new.toNat), false⟩ m) t.m }
  else if 0x3040 ≤ o && o < 0x3080 then
    let r := ix 0x3040 * 2
    let s := if loSet && r ≠ 0 then sPut {} r ⟨lo, false⟩ t.s else t.s
    ok { t with s := if hiSet then sPut {} (r + 1) ⟨hi, false⟩ s else s }
  else if 0x3080 ≤ o && o < 0x30C0 then ok { t with p := sPut {} (ix 0x3080) (ptrOfWord new.toNat) t.p }
  else if 0x30C0 ≤ o && o < 0x3100 then ok { t with h := sPut 0 (ix 0x30C0) new t.h }
  else if 0x3100 ≤ o && o < 0x3180 then
    let r := ix 0x3100 / 2
    let a := getV t (BitVec.ofNat 3 r)
    let d : W128 := if ix 0x3100 % 2 = 0 then (a.data >>> 64).setWidth 64 ++ new else new ++ a.data.setWidth 64
    ok { t with v := sPut {} r ⟨d, a.poison⟩ t.v }
  else if 0x3410 ≤ o && o < 0x3450 then ok { t with hoop := { t.hoop with table := sPut 0 (ix 0x3410) (new &&& 0x83FF03FF07FFFFFF) t.hoop.table } }
  else if 0x3480 ≤ o && o < 0x34A0 then ok { t with arr := { t.arr with stat := sPut {} (ix 0x3480) ⟨new, false⟩ t.arr.stat } }
  else if 0x3800 ≤ o && o < 0x3E00 then
    ok { t with num := { t.num with picot := writeBytes 0 (o - 0x3800) (leBytes 8 new.toNat) t.num.picot } }
  else if o = 0x3E00 then ok { t with num := { t.num with pdesc := sPut 0 1 (hi &&& 0x0FFFFFFF) (sPut 0 0 (lo &&& 0x0FFFFFFF) t.num.pdesc) } }
  else if o = 0x3E08 then ok { t with num := { t.num with pdesc := sPut 0 2 (lo &&& 0x0FFFFFFF) t.num.pdesc } }
  else if o = 0x3F10 then ok { t with num := { t.num with satLimit := lo } }
  else if o = 0x3F18 then
    let cfg : Nat := (List.range 4).foldl (fun a k => a + bits (8 * k + 5) (8 * k) lo.toNat * 2 ^ (8 * k)) 0
    ok { t with num := { t.num with amaxCfg := BitVec.ofNat 32 cfg } }
  else ok t

/-- A window write of 4 or 8 bytes, or of several consecutive words (R64). Every word is refused while the tile executes. -/
def tileWindowPut (executing : Bool) (x y : Nat) : Nat → Bytes → Tile → Tile × WindowWrite
  | _, [], t => (t, .done)
  | o, b :: bs, t =>
    if executing then (refuseWrite t, .busy)
    else
      let data := b :: bs
      if data.length = 4 then
        let up := o % 8 = 4
        let v := n64 (ofLe data)
        tileWriteWord x y (o / 8 * 8) (if up then v <<< 32 else v)
          (if up then n64 (2 ^ 64 - 2 ^ 32) else n64 (2 ^ 32 - 1)) t
      else
        (List.range (data.length / 8)).foldl (fun (r : Tile × WindowWrite) i =>
          let (t', s) := tileWriteWord x y (o + 8 * i) (n64 (ofLe ((data.drop (8 * i)).take 8))) (n64 (2 ^ 64 - 1)) r.1
          (t', if r.2 = .done then s else r.2)) (t, .done)

end Sys2Proof.Machine
end

