-- ==== Sys2Proof/Machine/Fabric.lean ====
section
/-! DEFINITION. The logic of a lacework segment: cells, wires, the tick and the slots (12 R318 to R328). -/

namespace Sys2Proof.Machine

/-! ## Cells and wires (R318 to R322) -/

def cellKey (c r : Nat) : Nat := c * 128 + r

def cellWord (m : Sparse (BitVec 256)) (c r : Nat) : Nat := (sGet 0 (cellKey c r) m).toNat

def inSel (w k : Nat) : Nat := bits (71 + 8 * k) (64 + 8 * k) w
def wireSel (w i : Nat) : Nat := bits (119 + 8 * i) (112 + 8 * i) w
def ff1D (w : Nat) : Bool := bitAt 241 w
def ff0Init (w : Nat) : Bool := bitAt 242 w
def ff1Init (w : Nat) : Bool := bitAt 243 w
def clockEnable (w : Nat) : Bool := bitAt 244 w
def portOut (w : Nat) : Bool := bitAt 245 w

/-- A wire's length by its code (Table 12-1). -/
def wireLen (i : Nat) : Nat :=
  match i % 4 with
  | 0 => 1
  | 1 => 4
  | 2 => 12
  | _ => 36

/-- The cell `n` places back from a cell against direction `dir` (R318, R321). -/
def backCell (dir c r n : Nat) : Option (Nat × Nat) :=
  match dir with
  | 0 => if r + n < 128 then some (c, r + n) else none
  | 1 => if n ≤ c then some (c - n, r) else none
  | 2 => if n ≤ r then some (c, r - n) else none
  | _ => if c + n < 512 then some (c + n, r) else none

/-- The cell is the last of the segment in a direction. -/
def lastIn (dir c r : Nat) : Bool :=
  match dir with
  | 0 => r == 0
  | 1 => c == 511
  | 2 => r == 127
  | _ => c == 0

/-- Cells whose wire `i` ends at cell (c, r): the one a full length away, and at an edge those nearer (R321). -/
def wireStarts (i c r : Nat) : List (Nat × Nat) :=
  let n := wireLen i
  (backCell (i / 4) c r n).toList
    ++ (if lastIn (i / 4) c r then (List.range n).filterMap (backCell (i / 4) c r) else [])

/-- The wire a source reads. Where none ends there the manual gives no value, and where several do it does not say which counts:
both are free values (log 17). -/
def wireStart (i c r : Nat) : Option (Nat × Nat) :=
  let ws := wireStarts i c r
  ws[Config.laceWire (cellKey c r) i ws.length % max ws.length 1]?

/-- What a segment reads at its boundary: bit i of the lane of row r. -/
abbrev PortBits := Nat → Nat → Bool

/-- The value of a source at a cell (Table 12-2); `fuel` bounds the wires and LUTs on the way. -/
def sourceVal (g : LaceSeg) (port : PortBits) : Nat → Nat → Nat → Nat → Bool
  | 0, _, _, _ => false
  | fuel + 1, c, r, v =>
    let w := cellWord g.cells c r
    if v = 1 then
      let ix := (List.range 6).foldl (fun a k => a + b2n (sourceVal g port fuel c r (inSel w k)) * 2 ^ k) 0
      bitAt ix w
    else if v = 2 then sGet false (cellKey c r) g.ff0
    else if v = 3 then sGet false (cellKey c r) g.ff1
    else if 4 ≤ v && v < 20 then
      match wireStart (v - 4) c r with
      | some (c', r') => sourceVal g port fuel c' r' (wireSel (cellWord g.cells c' r') (v - 4))
      | none => Config.laceOpen (cellKey c r) v
    else if v = 20 then decide (c ≤ 418) && port r c
    else v == 21

/-- A source reaches flip-flops, ports and constants within `fuel` LUTs and wires, so no cycle passes it. -/
def settles (m : Sparse (BitVec 256)) : Nat → Nat → Nat → Nat → Bool
  | 0, _, _, _ => false
  | fuel + 1, c, r, v =>
    let w := cellWord m c r
    if v = 1 then (List.range 6).all fun k => settles m fuel c r (inSel w k)
    else if 4 ≤ v && v < 20 then
      (wireStarts (v - 4) c r).all fun e => settles m fuel e.1 e.2 (wireSel (cellWord m e.1 e.2) (v - 4))
    else true

def laceFuel (m : Sparse (BitVec 256)) : Nat := 17 * m.length + 18

/-- Step 11 of Table 12-8: no cycle through LUTs and wires. -/
def noCycle (m : Sparse (BitVec 256)) : Bool :=
  m.all fun e =>
    let c := e.1 / 128
    let r := e.1 % 128
    settles m (laceFuel m) c r 1 && (List.range 16).all fun i => settles m (laceFuel m) c r (wireSel e.2.toNat i)

/-- Every select field holds a source value, and `port_out` stands where it may (Table 12-1, R320). -/
def cellLegal (c w : Nat) : Bool :=
  (List.range 6).all (fun k => inSel w k < 22) && (List.range 16).all (fun i => wireSel w i < 22)
    && !bitAt 240 w && bits 255 246 w == 0 && (!portOut w || decide (c ≤ 385))

/-- Flip-flops at their initial values (R322). -/
def initFlipFlops (g : LaceSeg) : LaceSeg :=
  { g with ff0 := g.cells.foldl (fun m e => sPut false e.1 (ff0Init e.2.toNat) m) []
           ff1 := g.cells.foldl (fun m e => sPut false e.1 (ff1Init e.2.toNat) m) [] }

/-- The loads of a tick (R322). -/
def loadFlipFlops (port : PortBits) (g : LaceSeg) : LaceSeg :=
  let fuel := laceFuel g.cells
  g.cells.foldl (fun (acc : LaceSeg) e =>
    let c := e.1 / 128
    let r := e.1 % 128
    let w := e.2.toNat
    if clockEnable w && !sourceVal g port fuel c r (inSel w 5) then acc
    else
      let out := sourceVal g port fuel c r 1
      let d1 := if ff1D w then sourceVal g port fuel c r (inSel w 0) else out
      { acc with ff0 := sPut false e.1 out acc.ff0, ff1 := sPut false e.1 d1 acc.ff1 }) g

/-! ## Slots (Tables 12-3 and 12-4) -/

def slotKey (dir lane k : Nat) : Nat := dir * 256 + lane * 2 + k
def laneBit (dir lane : Nat) : Nat := dir * 128 + lane

def slotInBits : Option SlotIn → Nat
  | none => 0
  | some w => 1 + b2n w.poison * 2 + w.data.toNat * 2 ^ 2 + w.fn.toNat * 2 ^ 66 + w.col.toNat * 2 ^ 74 + w.entry.toNat * 2 ^ 82
      + w.off.toNat * 2 ^ 86

/-- Output port bit j of the lane of row r (R326). -/
def outBit (g : LaceSeg) (r j : Nat) : Bool := portOut (cellWord g.cells j r) && sGet false (cellKey j r) g.ff1

def outField (g : LaceSeg) (r lo n : Nat) : Nat := (List.range n).foldl (fun a i => a + b2n (outBit g r (lo + i)) * 2 ^ i) 0

/-- The output slot of a lane, when it is valid. -/
def readOut (g : LaceSeg) (dir r k : Nat) : Option SlotOut :=
  let base := 192 * dir + 96 * k
  if outBit g r base then
    some { poison := outBit g r (base + 1), data := n64 (outField g r (base + 2) 64), col := BitVec.ofNat 8 (outField g r (base + 66) 8)
           entry := BitVec.ofNat 4 (outField g r (base + 74) 4), off := BitVec.ofNat 16 (outField g r (base + 78) 16) }
  else none

/-- Beats of parity `par` in the window that starts in W-beat `w`. -/
def parityBeats (ratio par w : Nat) : Nat := ((List.range ratio).filter fun i => (w + i) % 2 == par).length

/-- Which beat of the side's parity W-beat `w` is within its window, when it is one. -/
def slotOfBeat (ratio par w : Nat) : Option Nat :=
  if ratio ≠ 0 && w % 2 == par then some (parityBeats (w % ratio) par (w - w % ratio)) else none

/-- Input port bits of row r during the window before the tick in W-beat `w`. `stopped` says whether a lane of a direction is
stopped (R329); `par` is the parity of a row's side. -/
def portBits (g : LaceSeg) (w : Nat) (stopped : Nat → Nat → Bool) (par : Nat → Nat) : PortBits := fun r i =>
  if i < 208 then bitAt (i % 104) (slotInBits (sGet none (slotKey 0 r (i / 104)) g.inNow))
  else if i < 416 then bitAt (i % 104) (slotInBits (sGet none (slotKey 1 r ((i - 208) / 104)) g.inNow))
  else if i = 416 then stopped 0 r
  else if i = 417 then stopped 1 r
  else i == 418 && parityBeats g.ratio.toNat (par r) w == 2

/-- A word is presented in an input slot (R325, R328). -/
def presentWord (dir lane k : Nat) (w : SlotIn) (g : LaceSeg) : LaceSeg :=
  let g := { g with inNow := sPut none (slotKey dir lane k) (some w) g.inNow, wordsIn := g.wordsIn + 1 }
  if w.poison && !sGet false (laneBit dir lane) g.sticky then
    { g with sticky := sPut false (laneBit dir lane) true g.sticky, poisonLanes := satAdd 16 g.poisonLanes 1 }
  else g

def laceCounts (g : LaceSeg) : W64 := n64 (g.lost.toNat + g.drops.toNat * 2 ^ 16 + g.poisonLanes.toNat * 2 ^ 32)

/-- One tick in W-beat `w`: samples, loads, reads the output slots, discards those that the next window has no beat for, and
takes a capture that is due (R322, R325, R327, R329, R340). -/
def tickSegment (w : Nat) (stopped : Nat → Nat → Bool) (par : Nat → Nat) (g : LaceSeg) : LaceSeg :=
  let g := loadFlipFlops (portBits g w stopped par) g
  let keys : List (Nat × Nat × Nat) := (List.range 2).flatMap fun d => (List.range 128).flatMap fun l => (List.range 2).map fun k => (d, l, k)
  let read : List (Nat × Option SlotOut) := keys.map fun e =>
    match readOut g e.1 e.2.1 e.2.2 with
    | none => (slotKey e.1 e.2.1 e.2.2, none)
    | some o =>
      (slotKey e.1 e.2.1 e.2.2, some { o with poison := o.poison || sGet false (laneBit e.1 e.2.1) g.sticky })
  -- window m + 1 starts a ratio later
  let fits (key : Nat) : Bool := key % 2 < parityBeats g.ratio.toNat (par (key % 256 / 2)) (w + g.ratio.toNat)
  let dropped := (read.filter fun e => e.2.isSome && !fits e.1).length
  let holds := (List.range 2).flatMap fun d => (List.range 128).map fun l => (laneBit d l, outBit g l (384 + d))
  let g := { g with
    inNow := [], outNow := g.outNext, holdNow := g.holdNext, ticked := some w, drops := satAdd 16 g.drops dropped
    outNext := read.foldl (fun m (e : Nat × Option SlotOut) => if fits e.1 then sPut none e.1 e.2 m else m) []
    holdNext := holds.foldl (fun m (e : Nat × Bool) => sPut false e.1 e.2 m) [] }
  if g.capturePending then
    { g with capturePending := false, captureValid := true, captureWBeat := n64 w, cap0 := g.ff0, cap1 := g.ff1 }
  else g

/-! ## Functions of the loaded image (Table 12-6) -/

/-- Direction and latency of function `fn`, when the loaded image defines it. -/
def laceFunction (g : LaceSeg) (fn : Nat) : Option (Nat × Nat) :=
  if g.state = 2 then
    ((List.range (g.table.length / 8)).find? fun i => ofLe (bytesAt g.table (8 * i) 1) == fn).map fun i =>
      let v := ofLe (bytesAt g.table (8 * i) 8)
      (bits 9 8 v, bits 30 24 v)
  else none

/-- The function serves descriptors of a kind: 1 fetch, 2 drain (R324). -/
def serves (g : LaceSeg) (fn kind : Nat) : Bool :=
  match laceFunction g fn with
  | some (dir, _) => dir == 3 || dir == kind
  | none => false

def laceLatency (g : LaceSeg) (fn : Nat) : Nat := ((laceFunction g fn).map (·.2)).getD 0

/-- The segment emptied (R336, R338): no word, no function, state 0, counters 0. What is staged and the last refusal stay. -/
def emptySegment (g : LaceSeg) : LaceSeg :=
  { staged := g.staged, refusal := g.refusal, command := g.command, ctl := g.ctl, bypassOnly := g.bypassOnly, ticked := g.ticked }

/-- R331, but for the output queues, which the lanes hold. -/
def clearForStep (g : LaceSeg) : LaceSeg := { initFlipFlops g with sticky := [], inNow := [], outNow := [], outNext := [] }

end Sys2Proof.Machine
end

