-- ==== Sys2Proof/Machine/StepState.lean ====
section
/-! DEFINITION. The state of a partition's pattern and steps (09), its clock (13), its debug hold, recording and replay (16), and
its seals (14). -/

namespace Sys2Proof.Machine

/-- Knots and tables of a shuttle, as a boundary record keeps them (R279). -/
structure ShuttleTables where
  knots    : Sparse Knot := []
  channels : Sparse Channel := []
  queues   : Sparse Queue := []
  senders  : Sparse Sender := []
  deriving DecidableEq, Repr

/-- A carried region of a boundary record: shuttle number, local offset, bytes. -/
structure Carried where
  shuttle : Nat
  offset  : Nat
  data    : Bytes
  deriving DecidableEq, Repr

/-- A boundary record (R279). Tile knots by tile key × 8 + knot. -/
structure BoundaryRec where
  valid    : Bool := false
  counter  : BitVec 48 := 0
  lineage  : Bytes := []
  carried  : List Carried := []
  knots    : Sparse Knot := []
  shuttles : Sparse ShuttleTables := []
  deriving DecidableEq, Repr

/-- A stretch of HBM kept in a checkpoint. -/
structure KeptHbm where
  quad   : Nat
  offset : Nat
  data   : Bytes
  deriving DecidableEq, Repr

/-- A checkpoint slot (R282). -/
structure Checkpoint where
  complete : Bool := false
  rec_     : BoundaryRec := {}
  tensors  : List KeptHbm := []
  seed     : W64 := 0
  digest   : Bytes := []
  deriving DecidableEq, Repr

/-- A save (R252). Shuttles by image quadrant × 8 + k; tile knots by image quadrant, tile in the quadrant and knot; `a` and `b`: the
translation it was saved with. -/
structure Save where
  valid    : Bool := false
  shuttles : Sparse Shuttle := []
  knots    : Sparse Knot := []
  counter  : BitVec 48 := 0
  lineage  : Bytes := []
  seed     : W64 := 0
  a        : Int := 0
  b        : Int := 0
  deriving DecidableEq, Repr

/-- A partition's pattern (Table 9-15). `installed`: the bytes of the installed image, from which the image copy of R266 is made
with the translation (a, b) and the peers of its load (log 107). -/
structure Pattern where
  image     : Bytes := []
  command   : Byte := 0
  state     : Byte := 0
  digest    : Bytes := []
  expected  : Bytes := []
  refusal   : Bytes := []
  worstNs   : W64 := 0
  peers     : Bytes := []
  seed      : W64 := 0
  installed : Bytes := []
  peersUsed : Bytes := []
  seedInForce : W64 := 0
  a         : Int := 0
  b         : Int := 0
  deriving DecidableEq, Repr

/-- A partition's steps (Table 9-15). `consecutive`: retries of this step counter; `startNs`, `startSBeat`: the first S-beat of
the step; `reeval`: the floor or the hold limit has changed (R272); `heldNs`: time of the step under the debug source;
`batch`: the batch bytes the step service hashed at ingest. -/
structure StepSt where
  command   : Byte := 0
  state     : Byte := 0
  counter   : BitVec 48 := 0
  target    : W64 := 0
  retryLimit : Byte := 2
  retries   : W32 := 0
  consecutive : Nat := 0
  lastAbort : Byte := 0
  lastFault : Bytes := []
  lastNs    : W64 := 0
  overruns  : W32 := 0
  mismatch  : W32 := 0
  interval  : W32 := 0
  timeoutNs : W64 := 0
  lineage   : Bytes := []
  inputDigest : Bytes := []
  stopReason : Byte := 0
  startNs   : Nat := 0
  startSBeat : Nat := 0
  heldNs    : Nat := 0
  reqStop   : Bool := false
  reqPreempt : Bool := false
  reqCheckpoint : Bool := false
  reeval    : Bool := false
  batch     : Bytes := []
  records   : List BoundaryRec := []
  checkpoints : List Checkpoint := []
  save      : Save := {}
  /-- Peers that have arrived at a boundary, with its step counter, and the counts they sent (R307). -/
  arrived   : List (W16 × BitVec 48) := []
  peerCounts : List (W16 × BitVec 48 × List (W64 × W32)) := []
  /-- Item of R276 at which a boundary in progress waits, 0 outside one, and whether its barrier messages have been sent. -/
  phase     : Nat := 0
  barrierSent : Bool := false
  /-- `drain_lost` of the partition's quadrants at the start of the step (R280 cause 4). -/
  lostAt    : Nat := 0
  deriving DecidableEq, Repr

/-- A partition's clock and power (Table 13-6). `energies`: the last interval estimates, newest first; `changeFrom`: W-beat of the
change point at which the change source began to request; `switched`: the W-beat of its switch has passed. -/
structure Clock where
  beat      : Byte := 18
  pending   : Option Byte := none
  due       : W64 := 0
  down      : W32 := 0
  up        : W32 := 0
  deferred  : W32 := 0
  lastChange : W64 := 0
  share     : W16 := 0
  estimate  : W16 := 0
  throttle  : Byte := 100
  energies  : List Nat := []
  changeFrom : Option Nat := none
  switched  : Bool := false
  /-- The change point decided last. -/
  decided   : Nat := 0
  deriving DecidableEq, Repr

/-- Debug state of a partition (Table 16-8). `target`: S-beat count of an armed freeze; `snapW`: W-beat of the snapshot under way;
`abortWaits`: a halt's abort waits for the release (R436). -/
structure Debug where
  command   : Byte := 0
  argument  : W64 := 0
  state     : Byte := 0
  onHalt    : Byte := 0
  stopShuttles : Bool := false
  snapArea  : W64 := 0
  snapQuads : Option W32 := none
  firstFault : Bytes := []
  knotSet   : Bytes := []
  heldWBeats : W64 := 0
  target    : Option Nat := none
  snapW     : Nat := 0
  abortWaits : Bool := false
  /-- When the debug source raised its request, in ns. -/
  since     : Nat := 0
  deriving DecidableEq, Repr

/-- Recording and replay of a partition (Table 16-8). `used`: bytes of the area that hold header and entries; `stepFrom`: bytes at
the last step mark; `consumed`: entries of the recording that a replay has used; `mark`: step counter of the last
mark. -/
structure Recorder where
  command   : Byte := 0
  state     : Byte := 0
  areaOffset : W64 := 0
  areaBytes : W64 := 0
  divergedStep : W64 := 0
  divergedMask : W64 := 0
  stallNs   : W64 := 10000000
  liveDropped : W64 := 0
  arming    : Bool := false
  ending    : Bool := false
  used      : Nat := 0
  stepFrom  : Nat := 0
  entries   : Nat := 0
  mark      : W64 := 0
  consumed  : List Nat := []
  /-- Local senders whose turn has not come: target, origin, and since when in ns (R450). -/
  waiting   : List (W64 × W64 × Nat) := []
  /-- The detail word of the last `replay_mismatch`: header byte offset of the first differing field (R447). -/
  mismatch  : W32 := 0
  /-- Payloads sent in the step, by destination chip and flow (R445). -/
  sent      : Sparse Bytes := []
  deriving DecidableEq, Repr

/-- Seals of a partition (R393): queued and sealed records, oldest first. -/
structure Seals where
  queue   : List Bytes := []
  sealed  : List Bytes := []
  count   : W64 := 0
  deriving DecidableEq, Repr

/-- A readback window (Table 16-8). -/
structure Readback where
  base    : W64 := 0
  poisoned : W32 := 0
  first   : W64 := 0
  deriving DecidableEq, Repr

end Sys2Proof.Machine
end

