-- ==== Sys2Proof/Machine/PartState.lean ====
section
/-! DEFINITION. The state of a partition, chapter by chapter. -/

namespace Sys2Proof.Machine

/-- The configuration of a partition (Table 14-1), staged or in force. An empty key is the all-zero key. -/
structure PartCfg where
  quads   : W32 := 0
  floor   : Byte := 18
  ceiling : Byte := 18
  ports   : W16 := 0
  key     : Bytes := []
  vf      : Bool := false
  deriving DecidableEq, Repr

/-- A partition's state. -/
structure Part where
  active : PartCfg := {}
  staged : PartCfg := {}
  keyEpoch  : W32 := 0
  wallStops : W64 := 0
  opNonce   : W64 := 0
  hold   : Hold := {}
  sync   : Sync := {}
  pattern : Pattern := {}
  step   : StepSt := {}
  clock  : Clock := {}
  debugging : Debug := {}
  recd   : Recorder := {}
  seals  : Seals := {}
  deriving DecidableEq, Repr

end Sys2Proof.Machine
end

