-- ==== Sys2Proof/Machine/SecState.lean ====
section
/-! DEFINITION. The state of the Caerec module, the audit log, the roles and the configuration (14). -/

namespace Sys2Proof.Machine

/-- Credentials (R381 to R383). An empty key is the all-zero key. -/
structure Roles where
  installerKey : Bytes := []
  grant        : Bytes := []
  laceKeys     : Sparse Bytes := []
  installerNonce : W64 := 0
  makerNonce   : W64 := 0
  deriving DecidableEq, Repr

/-- The audit log (R388, R389). `kept`: records oldest first, without those of erased sectors. -/
structure Audit where
  headNumber : W64 := 0
  headChain  : Bytes := []
  kept       : List Bytes := []
  /-- Number and chain value of the record before the oldest kept one. -/
  baseNumber : W64 := 0
  baseChain  : Bytes := []
  baseSig    : Bytes := []
  exportedTo : W64 := 0
  anchor     : Bytes := []
  overwritten : W64 := 0
  deriving DecidableEq, Repr

/-- Configuration of partitions (R368 to R370). -/
structure ConfigState where
  state      : Byte := 0
  refusal    : Bytes := []
  generation : W32 := 0
  /-- Saved partitions whose HBM still moves, with the quadrants they leave (R372). -/
  moves      : Sparse W32 := []
  deriving DecidableEq, Repr

/-- Firmware (R399, R400). -/
structure Firmware where
  stage        : Bytes := []
  state        : Byte := 0
  banks        : Sparse Bytes := []
  activeBank   : BitVec 1 := 0
  marked       : Bool := false
  stagedSvn    : Byte := 0
  activeDigest : Bytes := []
  activeSvn    : Byte := 0
  rollback     : Byte := 0
  exhausted    : Bool := false
  deriving DecidableEq, Repr

/-- The module (R384, R391 to R397). `sealKey` and `journalKey` are the public halves of keys that it holds; `slot`: the slot of
the service frame that comes next. -/
structure Caerec where
  state        : Byte := 0
  approved     : Bool := false
  failures     : W32 := 0
  sealKey      : Bytes := []
  journalKey   : Bytes := []
  nonce        : Bytes := []
  slot         : Fin 18 := 0
  deriving DecidableEq, Repr

structure Sec where
  roles  : Roles := {}
  audit  : Audit := {}
  config : ConfigState := {}
  fw     : Firmware := {}
  caerec : Caerec := {}
  deriving DecidableEq, Repr

end Sys2Proof.Machine
end

