-- ==== Sys2Proof/Machine/LinkState.lean ====
section
/-! DEFINITION. The state of the chip ports, their flows, the departure sides, and rack time (11). -/

namespace Sys2Proof.Machine

/-- What a port puts on its lanes: packets, and link control frames (R295). -/
inductive LinkFrame
  | packet (p : Packet)
  | ack (lseq : BitVec 12)
  | retry (lseq : BitVec 12)
  | credit (units : Nat)
  deriving DecidableEq, Repr

/-- A spool READ that a port sends (R314). -/
structure SpoolRead where
  server    : BitVec 4
  requestId : W32
  object    : W64
  offset    : W64
  length    : W32
  deriving DecidableEq, Repr

/-- A request slot of an ingest port (Table 11-6). `got`: bytes that have arrived; `since`: when something last arrived. -/
structure SpoolSlot where
  w0       : W64 := 0
  w1       : W64 := 0
  w2       : W64 := 0
  w3       : W64 := 0
  state    : BitVec 2 := 0
  tries    : BitVec 4 := 0
  error    : BitVec 24 := 0
  received : W32 := 0
  count    : BitVec 26 := 0
  got      : Sparse Bool := []
  since    : Nat := 0
  deriving DecidableEq, Repr

/-- What the arrival side keeps of a flow (R302). `head`: the first packet of the message in arrival, with its bytes so far;
`skip`: bytes of a message with a final NAK still to be skipped; `sinceAck`, `ackAt`: deliveries since the last end-to-end
acknowledgement and its time. -/
structure FlowRx where
  expected : BitVec 12 := 0
  live     : Bool := false
  stored   : List Packet := []
  head     : Option Packet := none
  body     : Bytes := []
  marks    : List Bool := []
  skip     : Nat := 0
  sinceAck : Nat := 0
  ackAt    : Nat := 0
  last     : Nat := 0
  deriving DecidableEq, Repr

/-- A chip port. `credits`: what its peer has granted; `retryRun`: consecutive retry requests for `retryName`; `asked`: it has
sent a retry request and waits for the packet it names; `laneErrs`: symbol errors by lane record. -/
structure Port where
  mode      : Byte := 0
  state     : Byte := 0
  lanes     : Nat := 0
  downReason : Byte := 0
  peerChip  : W16 := 0
  peerPort  : Byte := 0
  retries   : W64 := 0
  crcErrors : W16 := 0
  downs     : W32 := 0
  rtt       : W16 := 0
  fecCorrected : W64 := 0
  fecBad    : W64 := 0
  lseqTx    : BitVec 12 := 0
  lseqRx    : BitVec 12 := 0
  replay    : List Packet := []
  retryName : BitVec 12 := 0
  retryRun  : Nat := 0
  asked     : Bool := false
  credits   : Nat := 0
  sinceAck  : Nat := 0
  ackAt     : Nat := 0
  laneErrs  : Sparse W32 := []
  wire      : List LinkFrame := []
  flows     : Sparse FlowRx := []
  -- ingest mode
  modeCfg   : Byte := 0
  ipv6      : Bytes := []
  mac       : W64 := 0
  servers   : Bytes := []
  vlan      : W16 := 0
  rxDrops   : W64 := 0
  pauses    : W32 := 0
  spool     : Sparse SpoolSlot := []
  reads     : List SpoolRead := []
  deriving DecidableEq, Repr

/-- A packet at a departure side (R303). `origin`: whom its completion reaches; `sent`: when it last left, and through which
port; `tries`: timeouts in a row. -/
structure TxPacket where
  pk      : Packet
  origin  : MsgFrom
  transit : Bool
  sent    : Option Nat
  port    : BitVec 4
  tries   : Nat
  deriving DecidableEq, Repr

/-- A flow of a sender: its next `fseq`, whether it was used since start or install, and when it was last acknowledged in full. -/
structure FlowTx where
  next  : BitVec 12 := 0
  used  : Bool := false
  clear : Nat := 0
  deriving DecidableEq, Repr

/-- The departure of partition p (R299 to R304). `waiting`: packets that have not left; `retained`: packets not yet
acknowledged; `resend`: flows to be sent again, with the time and the packet from which; `empty`: since when a chip has had no usable candidate. -/
structure Route where
  table       : Sparse W16 := []
  unreachNs   : W32 := 1000000
  e2eNs       : W32 := 50000
  unreach     : Sparse Bool := []
  retransmits : W64 := 0
  transitDrops : W64 := 0
  waiting     : List TxPacket := []
  retained    : List TxPacket := []
  flows       : Sparse FlowTx := []
  resend      : Sparse (Option (Nat × BitVec 12)) := []
  empty       : Sparse (Option Nat) := []
  deriving DecidableEq, Repr

/-- Chip numbers, lanes and rack time. `laneMap` entries are stored as port + 1, 0 for none. -/
structure Links where
  chip       : W16 := 0
  chipCfg    : W16 := 0
  laneMap    : Sparse Byte := []
  laneActive : Sparse Byte := []
  role       : Byte := 0
  period     : W32 := 1000000
  syncPort   : Byte := 15
  syncState  : Byte := 0
  syncJumps  : W32 := 0
  lastStep   : W64 := 0
  lastEdge   : Nat := 0
  lastSync   : Nat := 0
  pulsed     : Bool := false
  stepOut    : Bool := false
  ports      : Sparse Port := []
  deriving DecidableEq, Repr

end Sys2Proof.Machine
end

