-- ==== Sys2Proof/Machine/PackState.lean ====
section
/-! DEFINITION. The state of the package as a whole: start and journal, power, regions, pins (13, 17), transports, mailboxes and
sessions (15), maintenance (16). -/

namespace Sys2Proof.Machine

/-! ## Start (13) -/

/-- A unit of the start: its count of failures and whether the next start uses the alternative method, or skips it (R362, R363). -/
structure StartUnit where
  count : Nat := 0
  alternative : Bool := false
  skip  : Bool := false
  deriving DecidableEq, Repr

/-- A soft repair (R361). -/
structure Repair where
  x : Nat
  y : Nat
  deriving DecidableEq, Repr

structure Die where
  state       : Byte := 0
  unavailable : Byte := 0
  deriving DecidableEq, Repr

/-- The start (Table 13-6). Units by phase × 256 + unit. `journal`: the records kept, oldest first;
`began`: ns of P1; `hung`: the phase and unit whose work has not ended; `firstKey`: the module made its journal key in this
start; `untrusted`: its journal is damaged or empty, so every unit uses its alternative first; `training`: SHA-384 prefix of a unit's
stored values. -/
structure Start where
  state     : Byte := 0
  phase     : Byte := 0
  number    : W32 := 0
  command   : Byte := 0
  journalState : Byte := 0
  elapsed   : W32 := 0
  stoppedUnit : Byte := 0
  seamsCut  : W16 := 0
  units     : Sparse StartUnit := []
  journal   : List Bytes := []
  factory   : List Repair := []
  dies      : Sparse Die := []
  began     : Nat := 0
  hung      : Option (Nat × Nat) := none
  training  : Sparse W64 := []
  firstKey  : Bool := false
  untrusted : Bool := false
  complete  : Bool := false
  deriving DecidableEq, Repr

/-! ## Power and regions (13) -/

/-- A clock region (Table 13-6). `least`: lowest code of the interval; `hot`: its sensor reached the throttle; `zero`: a monitor
reported 0. -/
structure ClockRegion where
  margin   : Byte := 0
  monitors : W16 := 0
  above    : Byte := 0
  temperature : Byte := 0
  state    : Byte := 0
  critical : W32 := 0
  least    : BitVec 4 := 15
  hot      : Bool := false
  zero     : Bool := false
  deriving DecidableEq, Repr

/-- Package power. An unset limit is the envelope (R355). -/
structure Power where
  limit    : Option W16 := none
  package  : W16 := 0
  protect  : Byte := 0
  events   : W32 := 0
  above     : Nat := 0
  deriving DecidableEq, Repr

/-! ## Pins, reset and rails (17) -/

/-- A flash command that waits for a grant (R464): a journal record, a copy of the settings after a write of a class 3 entry (with
the value before it, R406), or the key store. -/
inductive FlashOp
  | journal (phase unit : Nat)
  | settings (index : W16) (sub : Byte) (old : Bytes)
  | keyStore
  deriving DecidableEq, Repr

/-- Pins and what the reset logic holds. `causeReg`: the VAUX register (R463), 0 for none yet. -/
structure Pins where
  vaux      : Bool := false
  inReset   : Bool := true
  resetPin  : Bool := true
  causeReg  : Byte := 0
  lastCause : Byte := 0
  regulators : Bool := false
  thermtrip : Bool := false
  status    : BitVec 4 := 0
  perst     : Bool := true
  /-- A start is due (R461, R463). -/
  startDue  : Bool := false
  straps    : Byte := 0
  refclks   : BitVec 4 := 0xF
  trips     : W32 := 0
  spiReq    : Bool := false
  flash     : List FlashOp := []
  jtag      : JtagInstr := .bypass
  deriving DecidableEq, Repr

/-! ## Transports (15) -/

/-- The page of a function (Tables 15-9 and 15-10). `masked`: its MSI-X vector's mask; `irqPending`: its pending bit. -/
structure Mailbox where
  request  : Sparse Byte := []
  response : Sparse Byte := []
  doorbell : BitVec 13 := 0
  state    : BitVec 2 := 0
  respLen  : BitVec 13 := 0
  winBase  : BitVec 20 := 0
  msixAddr : W64 := 0
  msixData : W32 := 0
  masked   : Bool := true
  irqPending : Bool := false
  deriving DecidableEq, Repr

/-- An open segmented transfer (R414). -/
structure Transfer where
  write  : Bool
  index  : W16
  sub    : Byte
  next   : Nat
  total  : Nat
  digest : Bytes
  data   : Bytes
  role   : Role
  since  : Nat
  deriving DecidableEq, Repr

/-- A session (R415): the last request with its response, waiting requests, and its transfer. -/
structure Session where
  lastReq  : Option DxpFrame := none
  lastResp : Bytes := []
  waiting  : List DxpFrame := []
  transfer : Option Transfer := none
  /-- The request whose effect is not complete, with the flash commands still before its answer, or the lacework readback that it
  waits for. -/
  executing : Option DxpFrame := none
  ahead    : Nat := 0
  lace     : Option Nat := none
  deriving DecidableEq, Repr

/-- Frames and messages that leave the package, newest last: management answers, MSI-X messages, in-band interrupts. -/
inductive Outbound
  | mgmt (addr : W128) (port : W16) (data : Bytes)
  | echo (data : Bytes)
  | resolution (addr : W128)
  | port (k : Nat) (data : Bytes)
  | msix (f : Nat)
  | hostWrite (f : Nat) (addr : W64) (data : Bytes)
  deriving DecidableEq, Repr

structure Transports where
  ipv4      : W32 := 0
  ipv4Prefix : Byte := 0
  ipv4Gateway : W32 := 0
  ipv6      : Bytes := []
  ipv6Prefix : Byte := 0
  ipv6Gateway : Bytes := []
  mgmtLink  : Byte := 0
  pcieLink  : W16 := 0
  i3cDyn    : Byte := 0
  requests  : W64 := 0
  aborts    : W64 := 0
  authFails : W32 := 0
  discarded : W32 := 0
  mailboxes : Sparse Mailbox := []
  sessions  : List (Transport × Session) := []
  outbox    : List Outbound := []
  deriving DecidableEq, Repr

/-! ## Maintenance (16) -/

/-- An activity that runs or waits, and what it touches: dies, partitions (1 to 16), quadrants, segments, channels (die × 32 +
channel) and ports. -/
structure Running where
  activity : Activity
  dies     : List Nat
  parts    : List Nat
  quads    : List Nat
  segments : List Nat
  channels : List Nat
  ports    : List Nat
  services : Bool
  target   : Nat
  deriving DecidableEq, Repr

/-- `fired`: by die, one more than rack time × 4,096 + index of the last record of the schedule that has started. -/
structure Maint where
  active  : List Running := []
  waiting : List Running := []
  /-- Last commands by die, and schedules. -/
  command : Sparse W32 := []
  schedule : Sparse Bytes := []
  fired    : Sparse Nat := []
  deriving DecidableEq, Repr

structure Pack where
  start   : Start := {}
  power   : Power := {}
  regions : Sparse ClockRegion := []
  pins    : Pins := {}
  io      : Transports := {}
  maint   : Maint := {}
  readback : Sparse Readback := []
  deriving DecidableEq, Repr

end Sys2Proof.Machine
end

