-- ==== Sys2Proof/Machine/EventState.lean ====
section
/-! DEFINITION. The state of the event controller and its rings (15 R419 to R429). -/

namespace Sys2Proof.Machine

/-- One source (R419, R420). `line` of a latched source is its latch; of a condition source, the condition. -/
structure EvSource where
  line     : Bool := false
  multiple : Bool := false
  detail   : W64 := 0
  enable   : Bool := false
  pending  : Bool := false
  active   : Bool := false
  deriving DecidableEq, Repr

/-- Ring r (Table 15-13). `store`: records of an internal ring by index × 4 + word. -/
structure Ring where
  cfg     : W64 := 0
  base    : W64 := 0
  head    : BitVec 12 := 0
  tail    : BitVec 12 := 0
  lap     : Bool := false
  seq     : W32 := 0
  records : W32 := 0
  full    : W16 := 0
  store   : Sparse W64 := []
  deriving DecidableEq, Repr

/-- Writes that reach the controller, applied one a clock in arrival order (R420). `ring`: the page, or none for the controller
window and the installer's entries. -/
inductive CtlWrite
  | enableSet (ring : Option FuncNo) (b : BitVec 1024)
  | enableClear (ring : Option FuncNo) (b : BitVec 1024)
  | pendingSet (ring : Option FuncNo) (b : BitVec 1024)
  | pendingClear (ring : Option FuncNo) (b : BitVec 1024)
  | complete (ring : Option FuncNo) (source : BitVec 10)
  deriving DecidableEq, Repr

/-- A record selected and not yet written (R420): due in controller clock `due`. -/
structure Assembly where
  due    : Nat
  ring   : FuncNo
  source : BitVec 10
  multiple : Bool
  rack   : W64
  detail : W64
  sBeat  : W64
  deriving DecidableEq, Repr

/-- Shadows of one path (R424): the last value written through each set, clear and complete address. -/
structure Shadows where
  enableSet    : BitVec 1024 := 0
  enableClear  : BitVec 1024 := 0
  pendingSet   : BitVec 1024 := 0
  pendingClear : BitVec 1024 := 0
  complete     : W16 := 0
  deriving DecidableEq, Repr

structure Events where
  clock    : Nat := 0
  sources  : Sparse EvSource := []
  holdoff  : Bool := true
  ibiMask  : W16 := 0x0023
  stray    : W32 := 0
  writes   : List CtlWrite := []
  assembly : List Assembly := []
  rings    : Sparse Ring := []
  /-- By page 0 to 16; 17 is the controller window. -/
  shadows  : Sparse Shadows := []
  /-- In-band interrupts the bus has not yet accepted (R427). -/
  ibi      : List Byte := []
  deriving DecidableEq, Repr

end Sys2Proof.Machine
end

