-- ==== Sys2Proof/Machine/PackageState.lean ====
section
/-! DEFINITION. The part, its fuses and its presence (00 R2 to R5). -/

namespace Sys2Proof.Machine

/-- The parts of Table 0-1. -/
inductive Variant | f8x48 | n8x48 | f4x36 | n4x36 | n2x36
  deriving DecidableEq, Repr

/-- The part and what its fuses hold. -/
structure Fuses where
  variant    : Variant := .f8x48
  serial     : W64 := 0
  dieRevs    : Sparse Byte := []
  mac        : W64 := 0
  releaseKey : Bytes := []
  fixedW     : W16 := 0
  quadMaxW   : Sparse W16 := []
  deriving DecidableEq, Repr

end Sys2Proof.Machine
end

