-- ==== Sys2Proof/Machine/State.lean ====
section
/-! DEFINITION. The whole state of the block, its stops, and the state in reset. -/

namespace Sys2Proof.Machine

/-- The answer given to whoever made the last request: a status (of the protocol the request came by) and data. -/
structure Reply where
  status : W32 := 0
  data   : Bytes := []
  deriving DecidableEq, Repr

/-- The package. `tiles` holds rows of tiles by y, and in each its tiles by x. -/
structure State where
  pending   : List Instr := []
  freeCount : Nat := 0
  nowNs     : Nat := 0
  rackNs    : W64 := 0
  reply     : Reply := {}
  fuses     : Fuses := {}
  tiles     : Sparse (Sparse Tile) := []
  sides     : Sparse Side := []
  laces     : Sparse LaceSeg := []
  hbm       : Sparse HbmQuad := []
  hbmDies   : Sparse HbmDie := []
  quadCounts : Sparse QuadCounts := []
  shuttles  : Sparse Shuttle := []
  net       : List NetMsg := []
  parts     : Sparse Part := []
  events    : Events := {}
  sec       : Sec := {}
  links     : Links := {}
  routes    : Sparse Route := []
  pack      : Pack := {}
  deriving DecidableEq, Repr

/-- No command of this block stops the machine. -/
inductive Fault
  /-- Raised by nothing: kept so that the outcome type is inhabited by a named reason. Safe. -/
  | none
  deriving DecidableEq, Repr

inductive Refusal
  /-- Raised by an arm of `exec` whose command has no meaning yet. Safe. -/
  | notModelled (mnemonic : String)
  deriving DecidableEq, Repr

def State.reset : State := {}

end Sys2Proof.Machine
end

