-- ==== Sys2Proof/Machine/Ops.lean ====
section
/-! DEFINITION. The named operations on the whole state: places in the package, ownership, events, HBM, free values. -/

namespace Sys2Proof.Machine

/-! ## The part (Tables 0-1 and 0-3) -/

def diesOf : Variant → Nat
  | .f8x48 => 8
  | .n8x48 => 8
  | .f4x36 => 4
  | .n4x36 => 4
  | .n2x36 => 2

def hasLacework : Variant → Bool
  | .f8x48 => true
  | .f4x36 => true
  | _ => false

def gibOf : Variant → Nat
  | .f8x48 => 48
  | .n8x48 => 48
  | _ => 36

def portMask : Variant → Nat
  | .n4x36 => 0x003F
  | .n2x36 => 0x003F
  | _ => 0x0FFF

def ingestMask : Variant → Nat
  | .n4x36 => 0
  | .n2x36 => 0
  | _ => 3

def tileRows (v : Variant) : Nat := diesOf v / 2 * 256

def envelopeW : Variant → Nat
  | .f8x48 => 1600
  | .n8x48 => 1560
  | .f4x36 => 840
  | .n4x36 => 800
  | .n2x36 => 460

def quadsOf (v : Variant) : Nat := diesOf v * 4

def portFitted (v : Variant) (p : Nat) : Bool := bitAt p (portMask v)

/-! ## Places (R12 to R14, R24, R28) -/

def tileKey (x y : Nat) : Nat := y * 1024 + x
def atKey (a : TileAt) : Nat := tileKey a.x.toNat a.y.toNat
def getTile (s : State) (k : Nat) : Tile := sGet {} (k % 1024) (sGet [] (k / 1024) s.tiles)
def putTile (s : State) (k : Nat) (t : Tile) : State := { s with tiles := sUpd [] (k / 1024) (sPut {} (k % 1024) t) s.tiles }

def getPart (s : State) (p : Nat) : Part := sGet {} p s.parts
def putPart (s : State) (p : Nat) (v : Part) : State := { s with parts := sPut {} p v s.parts }
def updPart (s : State) (p : Nat) (f : Part → Part) : State := putPart s p (f (getPart s p))
def updHold (s : State) (p : Nat) (f : Hold → Hold) : State := updPart s p fun q => { q with hold := f q.hold }

/-- The partition that owns a global quadrant; 0 when none does (R15). -/
def ownerOf (s : State) (g : Nat) : Nat :=
  ((List.range 17).find? fun p => p ≠ 0 && bitAt g (getPart s p).active.quads.toNat).getD 0

def quadsOfPart (s : State) (p : Nat) : List Nat :=
  (List.range (quadsOf s.fuses.variant)).filter fun g => bitAt g (getPart s p).active.quads.toNat

def quadOfAt (a : TileAt) : Nat := quadOf a.x.toNat a.y.toNat
def ownerOfAt (s : State) (a : TileAt) : Nat := ownerOf s (quadOfAt a)

def sideKey (die side : Nat) : Nat := die * 32 + side
def getSide (s : State) (k : Nat) : Side := sGet {} k s.sides
def putSide (s : State) (k : Nat) (v : Side) : State := { s with sides := sPut {} k v s.sides }
def updSide (s : State) (k : Nat) (f : Side → Side) : State := putSide s k (f (getSide s k))

/-- Global quadrant of a side of the package (07, Stream engine sides). -/
def quadOfSide (k : Nat) : Nat :=
  let die := k / 32
  let dx := die % 2
  let qx := if k % 2 = 0 then dx else 1 - dx
  die * 4 + k % 32 / 16 * 2 + qx

/-- The side that serves a tile, its lane, and the tile's column and lane stop (R24, R200). -/
def sideOfTile (x y : Nat) : Nat :=
  let die := dieOf x y
  let inner := b2n (!outerQuad (quadOf x y))
  die * 32 + y % 256 / 16 * 2 + inner

def laneOfTile (y : Nat) : Nat := y % 16
def stopOfTile (x y : Nat) : Nat := if dieOf x y % 2 = 0 then x % 512 else 511 - x % 512

/-- Coordinate of the tile of a side's lane and column. -/
def tileOfLane (k lane col : Nat) : Nat × Nat :=
  let die := k / 32
  let g := quadOfSide k
  (die % 2 * 512 + g % 2 * 256 + col, die / 2 * 256 + k % 32 / 2 * 16 + lane)

def sidesOfQuad (g : Nat) : List Nat :=
  (List.range 32).filterMap fun s => if quadOfSide (g / 4 * 32 + s) = g then some (g / 4 * 32 + s) else none

/-- Coordinates of the tiles of a quadrant, lowest y first. -/
def tilesOfQuad (g : Nat) : List (Nat × Nat) :=
  let die := g / 4
  (List.range 128).flatMap fun j => (List.range 256).map fun i =>
    (die % 2 * 512 + g % 2 * 256 + i, die / 2 * 256 + g % 4 / 2 * 128 + j)

def tilesOfPart (s : State) (p : Nat) : List (Nat × Nat) := (quadsOfPart s p).flatMap tilesOfQuad

def getShuttle (s : State) (n : Nat) : Shuttle := sGet {} n s.shuttles
def putShuttle (s : State) (n : Nat) (v : Shuttle) : State := { s with shuttles := sPut {} n v s.shuttles }
def updShuttle (s : State) (n : Nat) (f : Shuttle → Shuttle) : State := putShuttle s n (f (getShuttle s n))
def getThread (h : Shuttle) (t : Nat) : Thread := sGet {} t h.threads
def putThread (h : Shuttle) (t : Nat) (v : Thread) : Shuttle := { h with threads := sPut {} t v h.threads }
def updThread (s : State) (n t : Nat) (f : Thread → Thread) : State :=
  updShuttle s n fun h => putThread h t (f (getThread h t))

def ownerOfShuttle (s : State) (n : Nat) : Nat := ownerOf s (n / 8)

/-! ## Free values -/

/-- One free value is used: its number, and the state after it. -/
def takeFree (s : State) : Nat × State := (s.freeCount, { s with freeCount := s.freeCount + 1 })

/-! ## Events (R419) -/

/-- A latched source is asserted: the first detail since its latch was cleared is kept (R419). The line of a package source
that rises may raise an in-band interrupt (R427). -/
def assertEvent (src : Nat) (detail : W64) (s : State) : State :=
  let e := sGet {} src s.events.sources
  let e' : EvSource := if e.line then { e with multiple := true } else { e with line := true, multiple := false, detail := detail }
  let rises := !e.line && 0x300 ≤ src && src < 0x310 && bitAt (src - 0x300) s.events.ibiMask.toNat
  let code := BitVec.ofNat 8 (src - 0x300)
  { s with events := { s.events with
      sources := sPut {} src e' s.events.sources
      ibi := if rises && !s.events.ibi.contains code then s.events.ibi ++ [code] else s.events.ibi } }

/-- A condition source's line follows its condition. -/
def setCondition (src : Nat) (v : Bool) (detail : W64) (s : State) : State :=
  let e := sGet {} src s.events.sources
  let rises := !e.line && v && 0x300 ≤ src && src < 0x310 && bitAt (src - 0x300) s.events.ibiMask.toNat
  let code := BitVec.ofNat 8 (src - 0x300)
  { s with events := { s.events with
      sources := sPut {} src { e with line := v, detail := detail } s.events.sources
      ibi := if rises && !s.events.ibi.contains code then s.events.ibi ++ [code] else s.events.ibi } }

/-- Source numbers of Table 15-11. -/
def srcQuad (g k : Nat) : Nat := 8 * g + k
def srcPart (p k : Nat) : Nat := 0x100 + 16 * (p - 1) + k
def srcPort (p k : Nat) : Nat := 0x200 + 8 * p + k

/-! ## The address map (Table 1-4) -/

inductive Region
  | hbm (g off : Nat)
  | tile (x y off : Nat)
  | shuttleMem (n off : Nat)
  | shuttleCtl (n off : Nat)
  | sideWin (k off : Nat)
  | dieReserved (die : Nat)
  | port (p off : Nat)
  | service (off : Nat)
  | lace (g off : Nat)
  /-- Belongs to an absent unit (R7, R34): mapped, so the wall stops every partition there (log 15). -/
  | absent
  | unmapped
  deriving DecidableEq, Repr

def hbmQuadBytes (v : Variant) : Nat := gibOf v / 4 * 2 ^ 30

/-- R32, R34, R477. -/
def classify (v : Variant) (o : Nat) : Region :=
  if o < 8 * gibOf v * 2 ^ 30 then
    let g := o / hbmQuadBytes v
    if g < quadsOf v then .hbm g (o % hbmQuadBytes v) else .absent
  else if 0x100000000000 ≤ o && o < 0x100400000000 then
    let i := (o - 0x100000000000) / 16384
    if i / 1024 < tileRows v then .tile (i % 1024) (i / 1024) (o % 16384) else .absent
  else if 0x200000000000 ≤ o && o < 0x200004000000 then
    let n := (o - 0x200000000000) / 0x40000
    if n / 8 < quadsOf v then .shuttleMem n (o % 0x40000) else .absent
  else if 0x300000000000 ≤ o && o < 0x300008000000 then
    let die := (o - 0x300000000000) / 0x1000000
    let w := o % 0x1000000
    if diesOf v ≤ die then .absent
    else if 0x400000 ≤ w && w < 0x600000 then .shuttleCtl (die * 32 + (w - 0x400000) / 0x10000) (w % 0x10000)
    else if 0x800000 ≤ w && w < 0xA00000 then .sideWin (die * 32 + (w - 0x800000) / 0x10000) (w % 0x10000)
    else .dieReserved die
  else if 0x300010000000 ≤ o && o < 0x300010C00000 then
    let p := (o - 0x300010000000) / 0x100000
    if portFitted v p then .port p (o % 0x100000) else .absent
  else if 0x300020000000 ≤ o && o < 0x300021000000 then .service (o - 0x300020000000)
  else if 0x400000000000 ≤ o && o < 0x400200000000 then
    let g := (o - 0x400000000000) / 0x10000000
    if hasLacework v && g < quadsOf v then .lace g (o % 0x10000000) else .absent
  else .unmapped

/-- The partition a port is assigned to, 0 when none (R368). -/
def portOwner (s : State) (k : Nat) : Nat :=
  ((List.range 17).find? fun p => p ≠ 0 && bitAt k (getPart s p).active.ports.toNat).getD 0

/-- R373, Table 14-3. -/
def reaches (s : State) (p : Nat) : Region → Bool
  | .hbm g _ => ownerOf s g == p
  | .tile x y _ => ownerOf s (quadOf x y) == p
  | .shuttleMem n _ => ownerOf s (n / 8) == p
  | .shuttleCtl n _ => ownerOf s (n / 8) == p
  | .sideWin k _ => ownerOf s (quadOfSide k) == p
  | .dieReserved _ => false
  | .port k _ => portOwner s k == p
  | .service o => o / 0x10000 == p
  | .lace g _ => ownerOf s g == p
  | .absent => false
  | .unmapped => true

/-- Quadrant of a region that holds data (R380). -/
def dataQuad : Region → Option Nat
  | .hbm g _ => some g
  | .tile x y _ => some (quadOf x y)
  | .shuttleMem n _ => some (n / 8)
  | .shuttleCtl n _ => some (n / 8)
  | .sideWin k _ => some (quadOfSide k)
  | .lace g _ => some g
  | _ => none

/-- A virtual function of an existing partition, enabled (R375). -/
def functionOpen (s : State) (f : Nat) : Bool :=
  f ≠ 0 && (getPart s f).active.quads ≠ 0 && (getPart s f).active.vf

/-- The partition mask of the maker grant in force, when there is one (R383). -/
def grantMask (s : State) : Option Nat :=
  if s.sec.roles.grant = [] then none else some (ofLe (bytesAt s.sec.roles.grant 56 4))

/-- R380: what the installer reaches. -/
def installerReaches (s : State) (r : Region) : Bool :=
  match dataQuad r with
  | some g => ownerOf s g == 0 || !s.sec.caerec.approved
  | none => true

def makerReaches (s : State) (r : Region) : Bool :=
  match grantMask s, dataQuad r with
  | some m, some g => ownerOf s g == 0 || bitAt (ownerOf s g) m
  | some _, none => true
  | none, _ => false

/-- The partition a request is made on behalf of; none for the installer and the maker (R373). -/
def reqPart (s : State) : Requester → Option Nat
  | .shuttle n _ => some (ownerOfShuttle s n)
  | .host f => if f.val = 0 then none else some f.val
  | .dxp (.operator p) => some p.val
  | .dxp _ => none
  | .tile a => some (ownerOfAt s a)
  | .loader p => some p.val
  | .stepService p => some p.val

/-- R373 to R375, R380: the wall lets a request reach a place. -/
def mayReach (s : State) (r : Region) : Requester → Bool
  | .shuttle n _ => reaches s (ownerOfShuttle s n) r
  | .host f => if f.val = 0 then installerReaches s r else functionOpen s f && reaches s f r
  | .dxp .none => false
  | .dxp .maker => makerReaches s r
  | .dxp .installer => installerReaches s r
  | .dxp (.operator p) => reaches s p r
  | .tile a => reaches s (ownerOfAt s a) r
  | .loader p => reaches s p r
  | .stepService p => reaches s p r

/-- R374: each stop counts. -/
def countWall (by_ : Requester) (s : State) : State :=
  match reqPart s by_ with
  | some p => if p = 0 then s else updPart s p fun q => { q with wallStops := q.wallStops + 1 }
  | none => s

/-! ## HBM (R187, R188, R371) -/

def getHbm (s : State) (g : Nat) : HbmQuad := sGet {} g s.hbm
def putHbm (s : State) (g : Nat) (q : HbmQuad) : State := { s with hbm := sPut {} g q s.hbm }

/-- What a byte of HBM that nothing has written reads as: 0 before any key change of its quadrant, and afterwards a byte
unrelated to what was written (DESIGN CHOICE, log 9). -/
def hbmUnlisted (q : HbmQuad) (off : Nat) : Byte :=
  match q.epoch with
  | none => 0
  | some n => Config.hbmUnrelated n off

def hbmByte (q : HbmQuad) (off : Nat) : Byte := sGet (hbmUnlisted q off) off q.bytes

def hbmBytes (q : HbmQuad) (off : Nat) (n : Nat) : Bytes := (List.range n).map fun i => hbmByte q (off + i)

/-- A write keeps the canonical form: a byte equal to what the address reads as unlisted is not listed. -/
def hbmPutByte (off : Nat) (b : Byte) (q : HbmQuad) : HbmQuad := { q with bytes := sPut (hbmUnlisted q off) off b q.bytes }

def hbmPutBytes (off : Nat) : Bytes → HbmQuad → HbmQuad
  | [], q => q
  | b :: r, q => hbmPutBytes (off + 1) r (hbmPutByte off b q)

def updHbmDie (s : State) (die : Nat) (f : HbmDie → HbmDie) : State := { s with hbmDies := sUpd {} die f s.hbmDies }

/-- Package offset of a place in a quadrant's range. -/
def hbmOffset (v : Variant) (g off : Nat) : Nat := g * hbmQuadBytes v + off

/-- Stored bits of the sector at a package offset change, so that its next read has this outcome (R188, log 104). -/
def strike (o : Nat) (e : SectorOutcome) (s : State) : State :=
  match classify s.fuses.variant o with
  | .hbm g off =>
    if e = .clean then s else putHbm s g { getHbm s g with errors := sPut .clean (off / 32) e (getHbm s g).errors }
  | _ => s

/-- A read of the sector that holds `off` (R188): its 32 bytes, poison, and the state with its counts and marks. The outcome of the
access, or else that of the errors that the sector holds. -/
def readSector (g off : Nat) (o : SectorOutcome) (s : State) : Bytes × Bool × State :=
  let q := getHbm s g
  let k := off / 32
  let die := g / 4
  let data := hbmBytes q (k * 32) 32
  let zeros := List.replicate 32 (0 : Byte)
  if sGet false k q.poison then (zeros, true, s)
  else
    let counted (s : State) : State := updHbmDie s die fun d => { d with corrected := d.corrected + 1 }
    let spoil : Bytes × Bool × State :=
      let s := putHbm s g { q with poison := sPut false k true q.poison, errors := sPut .clean k .clean q.errors }
      let s := updHbmDie s die fun d => { d with uncorrected := d.uncorrected + 1 }
      (zeros, true, assertEvent (srcQuad g 4) (n64 (hbmOffset s.fuses.variant g (k * 32))) s)
    match (if o = .clean then sGet .clean k q.errors else o) with
    | .clean => (data, false, s)
    | .corrected => (data, false, counted (putHbm s g { q with errors := sPut .clean k .corrected q.errors }))
    | .uncorrectable => spoil
    | .beyondDetected => spoil
    | .beyondMiscorrected d => (bytesAt d 0 32, false, counted s)
    | .beyondMissed d => (bytesAt d 0 32, false, s)

/-- A write within one sector (R188): `whole` when it carries all 32 bytes as one write (R478); a smaller one reads the sector
first. -/
def writeSector (g off : Nat) (data : Bytes) (poison whole : Bool) (s : State) : State :=
  let k := off / 32
  let s := if whole then s else (readSector g off .clean s).2.2
  let q := getHbm s g
  let was := sGet false k q.poison
  let q := hbmPutBytes off data q
  let q := if whole then { q with poison := sPut false k poison q.poison, errors := sPut .clean k .clean q.errors }
    else { q with poison := sPut false k (was || poison) q.poison }
  putHbm s g q

/-- A range of HBM written sector by sector, as the light path does (R478). -/
def writeHbm (g off : Nat) (data : Bytes) (poison : Bool) (s : State) : State :=
  (List.range ((off + data.length + 31) / 32 - off / 32)).foldl (fun s i =>
    let lo := max off ((off / 32 + i) * 32)
    let hi := min (off + data.length) ((off / 32 + i + 1) * 32)
    writeSector g lo ((data.drop (lo - off)).take (hi - lo)) poison (hi - lo == 32) s) s

/-- A range of HBM read sector by sector; the outcome is that of its first sector. -/
def readHbm (g off n : Nat) (o : SectorOutcome) (s : State) : Bytes × Bool × State :=
  (List.range ((off + n + 31) / 32 - off / 32)).foldl (fun (acc : Bytes × Bool × State) i =>
    let lo := max off ((off / 32 + i) * 32)
    let hi := min (off + n) ((off / 32 + i + 1) * 32)
    let (d, p, s) := readSector g lo (if i = 0 then o else .clean) acc.2.2
    (acc.1 ++ (d.drop (lo % 32)).take (hi - lo), acc.2.1 || p, s)) ([], false, s)

/-- The new key of a quadrant: what it reads from now on is unrelated to what was written (R371), poison marks included. -/
def rekeyHbm (g : Nat) (s : State) : State :=
  let (n, s) := takeFree s
  putHbm s g { bytes := [], poison := (getHbm s g).poison, errors := (getHbm s g).errors, epoch := some n }

/-! ## Time (log 6) -/

/-- 10 ns pass. -/
def idle (s : State) : State := { s with nowNs := s.nowNs + 10, rackNs := s.rackNs + 10 }

/-! ## Answers -/

def answer (status : Nat) (data : Bytes) (s : State) : State := { s with reply := ⟨BitVec.ofNat 32 status, data⟩ }

end Sys2Proof.Machine
end

