-- ==== Sys2Proof/Machine/Threads.lean ====
section
/-! DEFINITION. Local memory of a shuttle, and the threads of its core: selection, registers and waits (08 R221 to R224, R243). -/

namespace Sys2Proof.Machine

/-! ## Local memory (R222, R243) -/

def localRead (h : Shuttle) (off n : Nat) : Bytes := readBytes 0 h.mem off n

def localPoison (h : Shuttle) (off n : Nat) : Bool :=
  n ≠ 0 && (List.range ((off + n + 7) / 8 - off / 8)).any fun i => sGet false (off / 8 + i) h.poison

/-- A reservation ends when anything writes its block of 8 bytes (log 28). -/
def dropReservations (off n : Nat) (m : Sparse Thread) : Sparse Thread :=
  (List.range 16).foldl (fun m t =>
    let th := sGet {} t m
    match th.reserved with
    | some b => if off < 8 * b + 8 && 8 * b < off + n then sPut {} t { th with reserved := none } m else m
    | none => m) m

/-- A write of local memory: a word written whole takes the poison of what is written, a word written in part keeps its own
besides (R215). -/
def localWrite (off : Nat) (data : Bytes) (poison : Bool) (h : Shuttle) : Shuttle :=
  let n := data.length
  if n = 0 then h
  else
    let marks := (List.range ((off + n + 7) / 8 - off / 8)).foldl (fun m i =>
      let w := off / 8 + i
      let whole := off ≤ 8 * w && 8 * w + 8 ≤ off + n
      sPut false w (poison || (!whole && sGet false w h.poison)) m) h.poison
    { h with mem := writeBytes 0 off data h.mem, poison := marks, threads := dropReservations off n h.threads }

def localWords : List (Pz 64) → Nat → Shuttle → Shuttle
  | [], _, h => h
  | w :: r, off, h => localWords r (off + 8) (localWrite off (leBytes 8 w.data.toNat) w.poison h)

/-! ## Registers of a thread (R221, R243) -/

/-- Integer register; x0 reads as zero. -/
def xReg (th : Thread) (r : BitVec 5) : W64 := if r = 0 then 0 else sGet 0 r.toNat th.x

def xPoisoned (th : Thread) (r : BitVec 5) : Bool := if r = 0 then false else sGet false r.toNat th.xPoison

def setX (r : BitVec 5) (v : W64) (poison : Bool) (th : Thread) : Thread :=
  if r = 0 then th
  else { th with x := sPut 0 r.toNat v th.x, xPoison := sPut false r.toNat poison th.xPoison }

def setF (r : BitVec 5) (v : W64) (poison : Bool) (th : Thread) : Thread :=
  { th with f := sPut 0 r.toNat v th.f, fPoison := sPut false r.toNat poison th.fPoison }

/-! ## Which thread runs (R224) -/

/-- The core selects a ready thread. -/
def selectThread (t : Nat) (h : Shuttle) : Shuttle :=
  let th := getThread h t
  putThread { h with running := some (BitVec.ofNat 4 t) } t { th with state := 1, switches := th.switches + 1 }

/-- The next ready thread in ascending number after `t`, wrapping; `t` itself comes last. -/
def nextThread (t : Nat) (h : Shuttle) : Option Nat :=
  ((List.range 16).map fun i => (t + 1 + i) % 16).find? fun u => (getThread h u).state == 0

/-- A thread leaves the running state, and the core runs the next. -/
def leaveRunning (t : Nat) (state : BitVec 3) (w : Waiting) (h : Shuttle) : Shuttle :=
  let h := putThread h t { getThread h t with state := state, waiting := w }
  if h.running = some (BitVec.ofNat 4 t) then
    let h := { h with running := none }
    match nextThread t h with
    | some u => selectThread u h
    | none => h
  else h

/-- A wait of a thread ends; an idle core selects it. -/
def readyThread (t : Nat) (h : Shuttle) : Shuttle :=
  let h := putThread h t { getThread h t with state := 0, waiting := .none }
  if h.running.isNone then selectThread t h else h

/-! ## Waits at knots of the own shuttle (R234, R235) -/

/-- The wait of a thread on a knot of its own shuttle. -/
structure OwnWait where
  rd   : BitVec 5
  knot : Nat
  op   : Nat
  n    : Nat
  user : KnotUser
  deriving DecidableEq, Repr

def ownWait (th : Thread) : Option OwnWait :=
  match th.waiting with
  | .ownKnot rd k op n u => if th.state = 4 then some ⟨rd, k.toNat, op.toNat, n.toNat, ⟨false, u, 0, 0⟩⟩ else none
  | _ => none

/-- The wait ends with a status. -/
def endOwnWait (t : Nat) (w : OwnWait) (kn : Knot) (r : KnotReply) (h : Shuttle) : Shuttle :=
  let h := { h with knots := sPut {} w.knot (countWaiter w.op w.user false r kn) h.knots }
  readyThread t (putThread h t (setX w.rd (r.status.setWidth 64) false (getThread h t)))

/-- Waiters on broken knots learn of it. -/
def wakeBroken (h : Shuttle) : Shuttle :=
  (List.range 16).foldl (fun h t =>
    match ownWait (getThread h t) with
    | some w =>
      let k : Knot := sGet {} w.knot h.knots
      if k.state = 2 then endOwnWait t w k kBroken h else h
    | none => h) h

end Sys2Proof.Machine
end

