-- ==== Sys2Proof/Machine/Streams.lean ====
section
/-! DEFINITION. Stream engine sides (07): descriptors, delivery and drain tracks, completions. -/

namespace Sys2Proof.Machine

/-! ## Descriptors (Table 7-2) -/

def dKind (d : DescSlot) : Nat := bits 3 0 d.w0.toNat
def dCommit (d : DescSlot) : Bool := bitAt 4 d.w0.toNat
def dFn (d : DescSlot) : Nat := bits 23 16 d.w0.toNat
def dTag (d : DescSlot) : Nat := bits 39 24 d.w0.toNat
def dCopyWords (d : DescSlot) : Nat := bits 60 40 d.w0.toNat + 1
def dOffset (d : DescSlot) : Nat := bits 47 0 d.w1.toNat
def dDest (d : DescSlot) : Nat := bits 47 0 d.w2.toNat
def dLane0 (d : DescSlot) : Nat := bits 3 0 d.w2.toNat
def dLanes (d : DescSlot) : Nat := bits 7 4 d.w2.toNat + 1
def dCol0 (d : DescSlot) : Nat := bits 15 8 d.w2.toNat
def dCols (d : DescSlot) : Nat := bits 23 16 d.w2.toNat + 1
def dEntry (d : DescSlot) : Nat := bits 27 24 d.w2.toNat
def dWords (d : DescSlot) : Nat := bits 38 32 d.w2.toNat + 1
def dOffset0 (d : DescSlot) : Nat := bits 46 40 d.w2.toNat
def dSeq0 (d : DescSlot) : Nat := bits 63 48 d.w2.toNat
def dTileStride (d : DescSlot) : Nat := bits 23 0 d.w3.toNat
def dLaneStride (d : DescSlot) : Nat := bits 47 24 d.w3.toNat

/-- Words a descriptor moves (R193 to R195). -/
def dTotal (d : DescSlot) : Nat := if dKind d = 3 then dCopyWords d else dLanes d * dCols d * dWords d

/-- Place of word i of a fetch in its loop: lane, column and word (R193). -/
def dPlace (d : DescSlot) (i : Nat) : Nat × Nat × Nat :=
  (dLane0 d + i % dLanes d, dCol0 d + i / dLanes d % dCols d, i / dLanes d / dCols d)

/-- R193: package offset of word w of lane l, column c. -/
def dAddr (d : DescSlot) (l c w : Nat) : Nat :=
  dOffset d + (l - dLane0 d) * dLaneStride d + (c - dCol0 d) * dTileStride d + 8 * w

/-- Stretches of bytes that a descriptor reads or writes, first and last byte: source and destination of a copy, or one stretch for
each tile. -/
def dRuns (d : DescSlot) : List (Nat × Nat) :=
  if dKind d = 3 then
    [(dOffset d, dOffset d + 8 * dCopyWords d - 1), (dDest d, dDest d + 8 * dCopyWords d - 1)]
  else
    (List.range (dLanes d)).flatMap fun l => (List.range (dCols d)).map fun c =>
      let a := dAddr d (dLane0 d + l) (dCol0 d + c) 0
      (a, a + 8 * dWords d - 1)

/-- Bytes of a stretch of which one lies in every range of the address map that the stretch meets: no range is smaller than 16 KiB, nor
begins elsewhere than at a multiple of it. -/
def runPoints (r : Nat × Nat) : List Nat :=
  r.1 :: r.2 :: (List.range (r.2 / 16384 - r.1 / 16384)).map fun i => (r.1 / 16384 + 1 + i) * 16384

/-- R192 item 2: reserved fields, of the layout and of the kind. -/
def dReservedZero (d : DescSlot) : Bool :=
  !bitAt 7 d.w0.toNat && bits 15 11 d.w0.toNat == 0 && bits 63 61 d.w0.toNat == 0 && bits 63 48 d.w1.toNat == 0
  && (match dKind d with
      | 1 => dSeq0 d == 0 && bits 60 40 d.w0.toNat == 0
      | 2 => dOffset0 d == 0 && bits 60 40 d.w0.toNat == 0
      | _ => dFn d == 0 && bits 63 48 d.w2.toNat == 0 && d.w3 == 0)
  && (dKind d == 3 || (bits 31 28 d.w2.toNat == 0 && !bitAt 39 d.w2.toNat && !bitAt 47 d.w2.toNat && bits 63 48 d.w3.toNat == 0))

/-- Two intervals of the 16-bit sequence numbers meet (R192 item 5). -/
def seqMeets (a na b nb : Nat) : Bool := (b + 65536 - a) % 65536 < na || (a + 65536 - b) % 65536 < nb

def claimsMeet (d e : DescSlot) : Bool :=
  dEntry d == dEntry e && dLane0 d < dLane0 e + dLanes e && dLane0 e < dLane0 d + dLanes d
  && dCol0 d < dCol0 e + dCols e && dCol0 e < dCol0 d + dCols d && seqMeets (dSeq0 d) (dWords d) (dSeq0 e) (dWords e)

def isUnmapped : Region → Bool
  | .unmapped => true
  | _ => false

def isTileRegion : Region → Bool
  | .tile _ _ _ => true
  | _ => false

def getLace (s : State) (g : Nat) : LaceSeg := sGet {} g s.laces
def putLace (s : State) (g : Nat) (v : LaceSeg) : State := { s with laces := sPut {} g v s.laces }
def updLace (s : State) (g : Nat) (f : LaceSeg → LaceSeg) : State := putLace s g (f (getLace s g))

/-- The segment that a side's words pass (R27). -/
def laceOf (s : State) (k : Nat) : LaceSeg := getLace s (quadOfSide k)

/-- Segment row of a lane of a side (R318). -/
def laceRow (k l : Nat) : Nat := (k % 32 / 2 * 16 + l) % 128

/-- R192: the status of the first check that fails, 0 when none does. -/
def checkDescriptor (s : State) (k : Nat) (d : DescSlot) : Nat :=
  let g := quadOfSide k
  let p := ownerOf s g
  let regions := ((dRuns d).flatMap runPoints).map (classify s.fuses.variant)
  let own (copy : Bool) : Region → Bool
    | .hbm h _ => h == g
    | .shuttleMem n _ => copy && n / 8 == g
    | _ => false
  let active := (List.range 80).filterMap fun i =>
    let e := sGet {} i (getSide s k).slots
    if e.active && dKind e = 2 && e.finished.isNone then some e else none
  if regions.any (fun r => !reaches s p r) then 4
  else if dKind d = 0 || 3 < dKind d || !dReservedZero d then 6
  else if dFn d ≠ 0 && !serves (laceOf s k) (dFn d) (dKind d) then 6
  else if dOffset d % 8 ≠ 0 || (dKind d = 3 && dDest d % 8 ≠ 0)
      || (dKind d ≠ 3 && (dTileStride d % 8 ≠ 0 || dLaneStride d % 8 ≠ 0)) then 6
  else if dKind d ≠ 3 && (dLane0 d + dLanes d > 16 || dCol0 d + dCols d > 256) then 6
  else if dKind d = 1 && dOffset0 d + dWords d > 128 then 6
  else if dKind d = 2 && active.any (claimsMeet d) then 6
  else if dKind d = 3 && dOffset d < dDest d + 8 * dCopyWords d && dDest d < dOffset d + 8 * dCopyWords d then 6
  else if regions.any isUnmapped then 2
  else if regions.any isTileRegion then 3
  else if !regions.all (own (dKind d == 3)) then 5
  else 0

/-! ## Acceptance (R191, R196) -/

def freeSlot (sd : Side) : Option Nat := (List.range 80).find? fun i => !(sGet {} i sd.slots).active

def triggersQueued (sd : Side) : Nat := (sd.inbox.filter fun i => match i with
  | .trigger _ => true
  | _ => false).length

/-- A pushed or written trigger enters the queue of 8, or is not taken (R196). -/
def enqueueTrigger (v : W64) (sd : Side) : Side × Bool :=
  if triggersQueued sd < 8 then ({ sd with inbox := sd.inbox ++ [.trigger v], lastTrigger := v }, true) else (sd, false)

/-- The descriptor a trigger makes of its template, and whether it is one that fails (R196). -/
def triggerDescriptor (sd : Side) (v : W64) : DescSlot × Bool :=
  let i := bits 7 0 v.toNat
  let w (j : Nat) : W64 := sGet 0 (i * 4 + j) sd.templates
  let tag := bits 31 16 v.toNat
  let w0 : W64 := if tag = 0 then w 0 else n64 ((w 0).toNat - bits 39 24 (w 0).toNat * 2 ^ 24 + tag * 2 ^ 24)
  let off : Int := (bits 47 0 (w 1).toNat : Int) + (BitVec.ofNat 32 (bits 63 32 v.toNat)).toInt * 256
  let bad := bits 3 0 (w 0).toNat = 0 || bits 15 8 v.toNat ≠ 0 || off < 0 || 2 ^ 48 ≤ off
  let w1 : W64 := if bad then w 1 else n64 ((w 1).toNat - bits 47 0 (w 1).toNat + off.toNat)
  ({ active := true, w0 := w0, w1 := w1, w2 := w 2, w3 := w 3 }, bad)

/-- Writes that waited for room in the trigger queue enter it (R191). -/
def unstall (sd : Side) : Side :=
  sd.stalled.foldl (fun sd v =>
    let (sd', ok) := enqueueTrigger v sd
    if ok then sd' else { sd with stalled := sd.stalled ++ [v] }) { sd with stalled := [] }

/-! ## The tracks of one lane (R25, R51, R200, R204) -/

/-- A word of the delivery track has reached its stop and waits there. -/
def waitsAtStop (w : TrackWord) : Bool := w.stop + 5 ≤ w.steps

/-- One W-beat of the words of a delivery track, the furthest first: who moves, and who reaches a stop that takes it. `takes`
says whether the stop's landing buffer has room; a word leaves the segment only when `exit` (R25, R329). `ahead` is the place of
the word before, once something blocks. -/
def moveDeliver (takes : TrackWord → Bool) (exit : Bool) : List TrackWord → Option Nat → List TrackWord × List TrackWord
  | [], _ => ([], [])
  | w :: r, ahead =>
    let want := if w.steps = 3 && !exit then 3 else min (w.steps + 1) (w.stop + 5)
    let steps := match ahead with
      | some a => if want < a then want else w.steps
      | none => want
    let w' := { w with steps := steps }
    if waitsAtStop w' && takes w' then
      let (kept, taken) := moveDeliver takes exit r ahead
      (kept, w' :: taken)
    else
      let (kept, taken) := moveDeliver takes exit r (if waitsAtStop w' || steps = w.steps || ahead.isSome then some steps else none)
      (w' :: kept, taken)

def getLane (sd : Side) (l : Nat) : Lane := sGet {} l sd.lanes
def putLane (l : Nat) (v : Lane) (sd : Side) : Side := { sd with lanes := sPut {} l v sd.lanes }

/-- The side places no word on a lane while a word waits at a stop (R51). -/
def laneBlocked (ln : Lane) : Bool := ln.deliver.any waitsAtStop

/-- The side's W-beats are its partition's even ones for an outer side and odd ones for an inner side (R25). -/
def sideBeat (k wBeat : Nat) : Bool := wBeat % 2 == k % 2

/-- Context of a tile for faults that arise outside its words. -/
def tileCtx (s : State) (p x y : Nat) : BeatCtx :=
  let h := (getPart s p).hold
  { sBeat := h.sBeat, wBeat := h.wBeat, x := BitVec.ofNat 10 x, y := BitVec.ofNat 10 y }

/-- R211: the halt is raised, once. -/
def raiseHalt (p : Nat) (s : State) : State :=
  updHold s p fun h => if h.haltAt.isSome then h else { h with haltAt := some h.wBeat, noMore := h.inRun }

/-- A tile changes; a fault it has raised raises the halt of its partition (R103), and the rescale and drain events follow. -/
def putTileChecked (p x y : Nat) (t : Tile) (s : State) : State :=
  let old := getTile s (tileKey x y)
  let g := quadOf x y
  let s := putTile s (tileKey x y) t
  let s := if t.fault.valid && !old.fault.valid then raiseHalt p s else s
  let s := if t.num.rescale && !old.num.rescale then assertEvent (srcQuad g 0) (n64 (x + y * 2 ^ 16)) s else s
  let lost := (t.drain.lost - old.drain.lost).toNat
  if lost = 0 then s
  else
    let q := sGet {} g s.quadCounts
    let s := { s with quadCounts := sPut {} g { q with drainLost := q.drainLost + BitVec.ofNat 32 lost } s.quadCounts }
    assertEvent (srcQuad g 1) ((sGet {} g s.quadCounts).drainLost.setWidth 64) s

/-- R49, R50: the lane stop of a tile takes a word into its landing buffer. -/
def takeWord (k l : Nat) (w : TrackWord) (s : State) : State :=
  let (x, y) := tileOfLane k l w.col.toNat
  let p := ownerOf s (quadOfSide k)
  putTileChecked p x y (enterLanding (tileCtx s p x y) w.data w.entry w.offset w.poison (getTile s (tileKey x y))) s

/-! ## Function words at the segment's output (R327, R329) -/

/-- A function's word or queue entry is lost (R329, R330), which the event reports. -/
def countLost (g : Nat) (s : State) : State :=
  let s := updLace s g fun v => { v with lost := satAdd 16 v.lost 1 }
  assertEvent (srcQuad g 6) (laceCounts (getLace s g)) s

def countOut (g : Nat) (s : State) : State := updLace s g fun v => { v with wordsOut := v.wordsOut + 1 }

/-- The output slot that a lane places in W-beat `w`. -/
def slotDue (s : State) (k dir l w : Nat) : Option SlotOut :=
  let v := laceOf s k
  if v.state = 2 then
    match slotOfBeat v.ratio.toNat (k % 2) w with
    | some j => sGet none (slotKey dir (laceRow k l) j) v.outNow
    | none => none
  else none

def functionTrackWord (k l : Nat) (o : SlotOut) : TrackWord :=
  let (x, y) := tileOfLane k l o.col.toNat
  { steps := 4, stop := stopOfTile x y, slot := none, col := o.col, entry := o.entry, offset := o.off.setWidth 7, data := o.data
    poison := o.poison }

/-- What the lane's function path does in a beat: the word it puts on the lane, its queue afterwards, and whether one is lost. -/
def queueStep {α : Type} (free : Bool) (queue : List α) (due : Option α) : Option α × List α × Bool :=
  let (out, queue, due) := if free then
      (match queue with
      | w :: r => (some w, r, due)
      | [] => (due, [], none))
    else (none, queue, due)
  match due with
  | none => (out, queue, false)
  | some w => if queue.length < 32 then (out, queue ++ [w], false) else (out, queue, true)

/-- Words of the track in order, with a function's word placed where words leave the segment. -/
def placeAtExit (w : TrackWord) (ws : List TrackWord) : List TrackWord :=
  ws.filter (fun u => 4 ≤ u.steps) ++ w :: ws.filter fun u => u.steps < 4

/-- One W-beat of the delivery track of a lane. -/
def deliverBeat (k l wBeat : Nat) (s : State) : State :=
  let ln := getLane (getSide s k) l
  let g := quadOfSide k
  let beat := sideBeat k wBeat
  let due := slotDue s k 0 l wBeat
  let (out, queue, lost) := queueStep (beat && !laneBlocked ln) ln.toGrid (due.map (functionTrackWord k l))
  let room (w : TrackWord) : Bool :=
    let (x, y) := tileOfLane k l w.col.toNat
    (getTile s (tileKey x y)).land.length < 4
  let (kept, taken) := moveDeliver room (beat && out.isNone) ln.deliver none
  let within (ws : List TrackWord) : List TrackWord := ws.filter fun w => w.steps < 4
  let left := (within ln.deliver).take ((within ln.deliver).length - (within kept).length)
  let kept := match out with
    | some w => placeAtExit w kept
    | none => kept
  let s := updSide s k fun sd =>
    let sd := putLane l { ln with deliver := kept, toGrid := queue } sd
    left.foldl (fun sd w => match w.slot with
      | some i => { sd with slots := sUpd {} i (fun d => { d with leftSeg := d.leftSeg + 1 }) sd.slots }
      | none => sd) sd
  let s := if due.isSome then countOut g s else s
  let s := if lost then countLost g s else s
  taken.foldl (fun s w => takeWord k l w s) s

/-! ## Placing words (R25, R193, R325) -/

/-- Next word a fetch may place, when it has been read (R193). -/
def nextReady (d : DescSlot) : Option (Nat × Pz 64) :=
  if d.active && dKind d = 1 && d.finished.isNone && d.sent < dTotal d then
    (d.ready.find? fun e => e.1 == d.sent).map fun e => (e.1, e.2)
  else none

/-- What one beat of a side has placed so far: the lanes used, the side, and words for the function path. -/
structure Placing where
  used  : List Nat
  side  : Side
  words : List (Nat × SlotIn)
  deriving DecidableEq, Repr

/-- Words that one descriptor places in one beat of its side: in order, at most one on each lane (R25, R193). `held`: lanes whose
function path takes no word in this window. -/
def placeFrom (k i wBeat : Nat) (held : Nat → Bool) : Nat → Placing → Placing
  | 0, a => a
  | fuel + 1, a =>
    let d := sGet {} i a.side.slots
    match nextReady d with
    | none => a
    | some (n, v) =>
      let (l, c, w) := dPlace d n
      let ln := getLane a.side l
      if a.used.contains l || laneBlocked ln || (dFn d ≠ 0 && held l) then a
      else
        let (x, y) := tileOfLane k l c
        let d' : DescSlot := { d with sent := n + 1, ready := d.ready.filter (fun e => e.1 ≠ n), lastAt := wBeat }
        let side := { a.side with slots := sPut {} i d' a.side.slots }
        if dFn d = 0 then
          let tw : TrackWord := { steps := 0, stop := stopOfTile x y, slot := some i, col := BitVec.ofNat 8 c
                                  entry := BitVec.ofNat 4 (dEntry d), offset := BitVec.ofNat 7 (dOffset0 d + w)
                                  data := v.data, poison := v.poison }
          placeFrom k i wBeat held fuel { a with used := l :: a.used, side := putLane l { ln with deliver := ln.deliver ++ [tw] } side }
        else
          let si : SlotIn := { poison := v.poison, data := v.data, fn := BitVec.ofNat 8 (dFn d), col := BitVec.ofNat 8 c
                               entry := BitVec.ofNat 4 (dEntry d), off := BitVec.ofNat 16 ((dOffset0 d + w) % 128) }
          placeFrom k i wBeat held fuel { a with used := l :: a.used, side := side, words := a.words ++ [(l, si)] }

/-- R25, R191: the side's beat. The order in which its descriptors share the lanes is not fixed: a free value chooses the
first. -/
def placeBeat (k wBeat : Nat) (s : State) : State :=
  let (n, s) := takeFree s
  let first := Config.choice n 80
  let v := laceOf s k
  let held (l : Nat) : Bool := sGet false (laneBit 0 (laceRow k l)) v.holdNow
  let a := (List.range 80).foldl (fun (a : Placing) j => placeFrom k ((first + j) % 80) wBeat held 16 a) ⟨[], getSide s k, []⟩
  let j := (slotOfBeat v.ratio.toNat (k % 2) wBeat).getD 0
  let s := putSide s k a.side
  if a.words.isEmpty then s
  else updLace s (quadOfSide k) fun v => a.words.foldl (fun v e => presentWord 0 (laceRow k e.1) j e.2 v) v

/-! ## Drain tracks (R204, R238) -/

/-- A drain claims a word (R194). -/
def claims (d : DescSlot) (lane : Nat) (w : DrainTrackWord) : Bool :=
  d.active && d.finished.isNone && dKind d == 2 && dEntry d == w.stream.toNat && dLane0 d ≤ lane && lane < dLane0 d + dLanes d
  && dCol0 d ≤ w.col.toNat && w.col.toNat < dCol0 d + dCols d && (w.seq.toNat + 65536 - dSeq0 d) % 65536 < dWords d

/-- The active drain of a side that claims a word of a lane. -/
def claimer (sd : Side) (lane : Nat) (w : DrainTrackWord) : Option Nat :=
  (List.range 80).find? fun i => claims (sGet {} i sd.slots) lane w

/-- A word has reached the side and waits there. -/
def drainArrived (ln : Lane) : Bool := ln.drain.any fun w => w.left == 0

/-- `msg_stop` as the lane stop at `k` stops from the edge sees it (R239). -/
def seesMsgStop (sd : Side) (stop wBeat : Nat) : Bool :=
  match sd.msgStop.find? fun e => e.1 + stop + 1 ≤ wBeat with
  | some e => e.2
  | none => false

/-- The word a lane stop inserts (R204, R238): the oldest of its drain buffer, else of its outbound queue. -/
def insertWord (sd : Side) (wBeat x y : Nat) (t : Tile) : Option (DrainTrackWord × Tile) :=
  let base : DrainTrackWord := { left := stopOfTile x y + 5, col := BitVec.ofNat 8 (x % 256), x := BitVec.ofNat 10 x, y := BitVec.ofNat 10 y
                                 data := 0, poison := false, msg := false, stream := 0, seq := 0, first := false, last := false
                                 knot := false, emitted := false }
  match t.drain.buf with
  | w :: r =>
    some ({ base with data := w.data, poison := w.poison, stream := w.stream, seq := w.seq }, { t with drain := { t.drain with buf := r } })
  | [] =>
    match t.outQ with
    | [] => none
    | w :: r =>
      if seesMsgStop sd (stopOfTile x y) wBeat then none
      else some ({ base with data := w.data, poison := w.poison, msg := true, first := w.first, last := w.last, knot := w.knot },
                 { t with outQ := r })

def fwdWords (sd : Side) : Nat := (sd.fwd.map fun m => m.words.length).sum

/-- R239: a message word reaches the forwarder. A handle word opens a message; other words join the latest open one of their
tile. -/
def fwdTake (w : DrainTrackWord) (sd : Side) : Side :=
  let ow : OutWord := ⟨w.data, w.first, w.last, w.knot, w.poison⟩
  if w.first then { sd with fwd := sd.fwd ++ [{ x := w.x, y := w.y, words := [ow], complete := w.last }] }
  else
    let rec join : List FwdMsg → List FwdMsg
      | [] => []
      | m :: r =>
        if m.x == w.x && m.y == w.y && !m.complete && !(r.any fun o => o.x == w.x && o.y == w.y && !o.complete) then
          { m with words := m.words ++ [ow], complete := w.last } :: r
        else m :: join r
    { sd with fwd := join sd.fwd }

/-- `msg_stop` follows the free words of the forwarder's buffer (R239). -/
def updateMsgStop (wBeat : Nat) (sd : Side) : Side :=
  let want : Bool := decide (16384 < fwdWords sd + 8192)
  let cur := match sd.msgStop with
    | e :: _ => e.2
    | [] => false
  if want == cur then sd else { sd with msgStop := ((wBeat, want) :: sd.msgStop).take 64 }

/-- One stop for every word of a drain track, the nearest to the side first; a word behind a place that is taken waits. `entered`:
the side's place takes a function's word in this beat. -/
def moveDrain (entered : Bool) : List DrainTrackWord → Option Nat → List DrainTrackWord
  | [], _ => []
  | w :: r, ahead =>
    let left := match ahead with
      | some a => if a < w.left - 1 then w.left - 1 else w.left
      | none => if entered && w.left = 1 then 1 else w.left - 1
    { w with left := left } :: moveDrain entered r (if left = w.left || ahead.isSome then some left else none)

/-- A word at the segment's entry that no active drain claims waits there (R194, R324). -/
def waitsForDrain (sd : Side) (l : Nat) (w : DrainTrackWord) : Bool := w.left == 4 && !w.msg && (claimer sd l w).isNone

/-- Words that a drain through a function claims leave the track for an input slot (R324, R325). -/
def enterFunction (k l wBeat : Nat) (s : State) : State :=
  let sd := getSide s k
  let ln := getLane sd l
  let v := laceOf s k
  match ln.drain.find? fun w => w.left == 4 && !w.msg with
  | none => s
  | some w =>
    match claimer sd l w with
    | none => s
    | some i =>
      let d := sGet {} i sd.slots
      if dFn d = 0 || sGet false (laneBit 1 (laceRow k l)) v.holdNow then s
      else match slotOfBeat v.ratio.toNat (k % 2) wBeat with
        | none => s
        | some j =>
          let si : SlotIn := { poison := w.poison, data := w.data, fn := BitVec.ofNat 8 (dFn d), col := w.col, entry := w.stream, off := w.seq }
          let d' : DescSlot := { d with entered := d.entered + 1, lastAt := wBeat }
          let s := putSide s k (putLane l { ln with drain := ln.drain.filter (· ≠ w) } { sd with slots := sPut {} i d' sd.slots })
          updLace s (quadOfSide k) (presentWord 1 (laceRow k l) j si)

/-- A claimed word of a function drain still stands at the segment's entry. -/
def waitsForFunction (sd : Side) (l : Nat) (w : DrainTrackWord) : Bool :=
  w.left == 4 && !w.msg && (match claimer sd l w with
    | some i => dFn (sGet {} i sd.slots) ≠ 0
    | none => false)

def emittedWord (k l : Nat) (o : SlotOut) : DrainTrackWord :=
  let (x, y) := tileOfLane k l o.col.toNat
  { left := 0, col := o.col, x := BitVec.ofNat 10 x, y := BitVec.ofNat 10 y, data := o.data, poison := o.poison, msg := false
    stream := o.entry, seq := o.off, first := false, last := false, knot := false, emitted := true }

/-- One W-beat of the drain track of a lane: words enter the function path or move, message words enter the forwarder, a function's
word reaches the side, and in the side's beats the lane stops insert. -/
def drainBeat (k l wBeat : Nat) (s : State) : State :=
  let s := enterFunction k l wBeat s
  let sd := getSide s k
  let ln := getLane sd l
  let g := quadOfSide k
  let beat := sideBeat k wBeat
  let blocked := ln.drain.any (waitsForDrain sd l)
  let full := drainArrived ln || blocked || 512 ≤ sd.writes.length || ln.drain.any (waitsForFunction sd l)
  let due := slotDue s k 1 l wBeat
  let (out, queue, lost) := queueStep (beat && !drainArrived ln && sd.writes.length < 512) ln.toSide (due.map (emittedWord k l))
  let s := if due.isSome then countOut g s else s
  let s := if lost then countLost g s else s
  let s :=
    if full then putSide s k (putLane l { ln with toSide := queue, stopped := blocked || (ln.stopped && drainArrived ln)
                                                  drain := out.toList ++ ln.drain } sd)
    else
      let moved := moveDrain out.isSome ln.drain none
      let (msgs, stay) := moved.partition fun w => w.msg && w.left == 0
      let sd := msgs.foldl (fun sd w => fwdTake w sd) sd
      let ln := { ln with drain := out.toList ++ stay, toSide := queue, stopped := false }
      let (ln, s) :=
        if !beat then (ln, s)
        else
          (List.range 256).foldl (fun (acc : Lane × State) c =>
            let (x, y) := tileOfLane k l c
            if acc.1.drain.any fun w => w.left == stopOfTile x y + 5 then acc
            else match insertWord sd wBeat x y (getTile acc.2 (tileKey x y)) with
              | none => acc
              | some (w, t) => ({ acc.1 with drain := insertDrain w acc.1.drain }, putTile acc.2 (tileKey x y) t)) (ln, s)
      putSide s k (updateMsgStop wBeat (putLane l ln sd))
  s
where
  /-- The track in order of distance from the side. -/
  insertDrain (w : DrainTrackWord) (ws : List DrainTrackWord) : List DrainTrackWord :=
    ws.filter (fun u => u.left ≤ w.left) ++ w :: ws.filter fun u => w.left < u.left

/-! ## Drains, copies and completions -/

/-- R217: the fault record that a side writes for the draining tile. -/
def commitFault (p : Nat) (w : DrainTrackWord) (s : State) : State :=
  let x := w.x.toNat
  let y := w.y.toNat
  let t := getTile s (tileKey x y)
  putTileChecked p x y (raise (tileCtx s p x y) 0x14 7 (1 + w.stream.toNat * 2 + w.seq.toNat * 2 ^ 5) t) s

/-- DRAIN_WORD_ARRIVES: the arrived word of a lane is claimed into the write buffer, or stops its lane (R194, R217). -/
def drainArrives (k l : Nat) (s : State) : State :=
  let sd := getSide s k
  let ln := getLane sd l
  match ln.drain.find? (fun w => w.left == 0) with
  | none => s
  | some w =>
    match claimer sd l w with
    | none =>
      if w.emitted then countLost (quadOfSide k) (updSide s k (putLane l { ln with drain := ln.drain.filter (· ≠ w) }))
      else updSide s k (putLane l { ln with stopped := true })
    | some i =>
      let d := sGet {} i sd.slots
      let rest := { ln with drain := ln.drain.filter (· ≠ w), stopped := false }
      if dCommit d && w.poison then
        let p := ownerOf s (quadOfSide k)
        let s := updSide s k fun sd => putLane l rest
          { sd with slots := sPut {} i { d with finished := some 7 } sd.slots, writes := sd.writes.filter fun b => b.slot ≠ i }
        raiseHalt p (commitFault p w s)
      else if 512 ≤ sd.writes.length then s
      else
        let q := (w.seq.toNat + 65536 - dSeq0 d) % 65536
        let b : BufferedWrite := { slot := i, index := 0, offset := dAddr d l w.col.toNat q, data := w.data, poison := w.poison
                                   x := w.x, y := w.y, stream := w.stream, seq := w.seq }
        updSide s k fun sd => putLane l rest { sd with writes := sd.writes ++ [b] }

/-- Words that a side writes under `commit` join the sum of its quadrant: package offset and word of each (R445). -/
def addCommit (k : Nat) (d : DescSlot) (ws : List (Nat × W64)) (s : State) : State :=
  if !dCommit d then s
  else
    let g := quadOfSide k
    let q := sGet {} g s.quadCounts
    let sum := ws.foldl (fun a e => a + mix64 (mix64 (n64 e.1) ^^^ e.2)) q.commitSum
    { s with quadCounts := sPut {} g { q with commitSum := sum } s.quadCounts }

/-- The oldest words of the write buffer reach HBM: all words of one sector held together are one write (R478). -/
def writeBufferLands (k : Nat) (s : State) : State :=
  let sd := getSide s k
  match sd.writes with
  | [] => s
  | b :: _ =>
    let g := quadOfSide k
    let same := sd.writes.filter fun c => c.slot == b.slot && c.offset / 32 == b.offset / 32
    let base := g * hbmQuadBytes s.fuses.variant
    let whole := same.length = 4
    let s :=
      if whole then
        let words := (List.range 4).map fun i => ((same.find? fun c => c.offset % 32 / 8 == i).map (·.data)).getD 0
        writeSector g (b.offset / 32 * 32 - base) (words.flatMap fun w => leBytes 8 w.toNat) (same.any (·.poison)) true s
      else same.foldl (fun s c => writeSector g (c.offset - base) (leBytes 8 c.data.toNat) c.poison false s) s
    let s := addCommit k (sGet {} b.slot sd.slots) (same.map fun c => (c.offset, c.data)) s
    updSide s k fun sd => { sd with
      writes := sd.writes.filter fun c => !(c.slot == b.slot && c.offset / 32 == b.offset / 32)
      slots := sUpd {} b.slot (fun d => { d with sent := d.sent + same.length, moved := d.moved + BitVec.ofNat 32 same.length }) sd.slots }

/-- A word of a fetch is read from HBM (R193). -/
def fetchRead (k i n : Nat) (o : SectorOutcome) (s : State) : State :=
  let d := sGet {} i (getSide s k).slots
  if n < d.sent || dTotal d ≤ n || d.ready.any (fun e => e.1 == n) then s
  else
    let (l, c, w) := dPlace d n
    let g := quadOfSide k
    let off := dAddr d l c w - g * hbmQuadBytes s.fuses.variant
    let (bytes, poison, s) := readSector g off o s
    let v : Pz 64 := ⟨n64 (ofLe ((bytes.drop (off % 32)).take 8)), poison⟩
    let first := poison && !sGet false (off / 32) d.written
    updSide s k fun sd => { sd with slots := sPut {} i { d with
      ready := d.ready ++ [(n, v)], moved := d.moved + 1
      poisoned := if first then satAdd 32 d.poisoned 1 else d.poisoned
      written := if poison then sPut false (off / 32) true d.written else d.written } sd.slots }

/-- A word with its poison, of HBM or of a shuttle's local memory. -/
def copyRead (off : Nat) (o : SectorOutcome) (s : State) : W64 × Bool × State :=
  match classify s.fuses.variant off with
  | .hbm g q =>
    let (b, p, s) := readSector g q o s
    (n64 (ofLe ((b.drop (q % 32)).take 8)), p, s)
  | .shuttleMem n q =>
    let h := getShuttle s n
    (n64 (ofLe (localRead h q 8)), localPoison h q 8, s)
  | _ => (0, false, s)

/-- The words of one destination sector of a copy are read and written (R195, R478, R217). -/
def copySector (k i n : Nat) (o : SectorOutcome) (s : State) : State :=
  let d := sGet {} i (getSide s k).slots
  if dTotal d ≤ n then s
  else
    let sec := (dDest d + 8 * n) / 32
    let ws := (List.range 4).filterMap fun j =>
      let a := sec * 32 + 8 * j
      if dDest d ≤ a && (a - dDest d) / 8 < dTotal d && !sGet false ((a - dDest d) / 8) d.written then some ((a - dDest d) / 8) else none
    let (vals, s) := ws.foldl (fun (acc : List (Nat × W64 × Bool) × State) j =>
      let (v, p, s) := copyRead (dOffset d + 8 * j) (if j = n then o else .clean) acc.2
      (acc.1 ++ [(j, v, p)], s)) ([], s)
    let poison := vals.any fun e => e.2.2
    let count := BitVec.ofNat 32 vals.length
    if dCommit d && poison then
      let s := updSide s k fun sd => { sd with slots := sPut {} i { d with finished := some 7 } sd.slots }
      let p := ownerOf s (quadOfSide k)
      updHold (raiseHalt p s) p fun h => { h with lastCause := 8 }
    else
      let s := match classify s.fuses.variant (sec * 32) with
        | .hbm g q =>
          if vals.length = 4 then writeSector g q (vals.flatMap fun e => leBytes 8 e.2.1.toNat) poison true s
          else vals.foldl (fun s e => writeSector g (q + (dDest d + 8 * e.1) % 32) (leBytes 8 e.2.1.toNat) e.2.2 false s) s
        | .shuttleMem m q =>
          vals.foldl (fun s e =>
            let a := q + (dDest d + 8 * e.1) % 32
            updShuttle s m (localWrite a (leBytes 8 e.2.1.toNat) e.2.2)) s
        | _ => s
      let s := addCommit k d (vals.map fun e => (dDest d + 8 * e.1, e.2.1)) s
      updSide s k fun sd => { sd with slots := sPut {} i { d with
        written := vals.foldl (fun m e => sPut false e.1 true m) d.written, moved := d.moved + count, sent := d.sent + vals.length
        poisoned := if poison then satAdd 32 d.poisoned 1 else d.poisoned } sd.slots }

/-- An emitted word that a drain claims has not been written yet (R330). -/
def emittedPending (sd : Side) (i : Nat) : Bool :=
  (List.range 16).any (fun l =>
    let ln := getLane sd l
    (ln.drain ++ ln.toSide).any fun w => w.emitted && claims (sGet {} i sd.slots) l w) || sd.writes.any fun b => b.slot == i

/-- The status a descriptor would complete with now (R197, R330), if it may complete. `wBeat`: the partition's W-beat. -/
def completion (v : LaceSeg) (wBeat : Nat) (sd : Side) (i : Nat) : Option Byte :=
  let d := sGet {} i sd.slots
  match d.finished with
  | some st => some st
  | none =>
    let status : Byte := if d.poisoned = 0 then 0 else 1
    let late := decide (d.lastAt + laceLatency v (dFn d) ≤ wBeat)
    let done :=
      if dKind d = 1 then (if dFn d = 0 then decide (dTotal d ≤ d.leftSeg) else decide (dTotal d ≤ d.sent) && late)
      else if dKind d = 2 && dFn d ≠ 0 then decide (dTotal d ≤ d.entered) && late && !emittedPending sd i
      else decide (dTotal d ≤ d.sent)
    if done then some status else none

/-- Every accepted descriptor that has not completed completes with `aborted` (R197). -/
def abortSlots (sd : Side) : Side :=
  { sd with slots := sd.slots.map fun e =>
      if e.2.active && e.2.finished.isNone then (e.1, { e.2 with finished := some 8 }) else e }

/-- Completion record (Table 7-4). -/
def completionWords (k : Nat) (d : DescSlot) (status : Byte) (lap : Bool) : Bytes :=
  leBytes 8 (dTag d + status.toNat * 2 ^ 16 + dKind d * 2 ^ 20 + k % 32 * 2 ^ 24 + d.poisoned.toNat * 2 ^ 32)
    ++ leBytes 8 (d.moved.toNat + b2n lap * 2 ^ 63)

/-- Ring size, when `cq_log2` is legal (Table 7-9). -/
def ringSize (sd : Side) : Option Nat := if 4 ≤ sd.cqLog2.toNat && sd.cqLog2.toNat ≤ 12 then some (2 ^ sd.cqLog2.toNat) else none

/-- The record is written, unless the descriptor is quiet; none while the ring is full (R197). -/
def writeCompletion (k : Nat) (d : DescSlot) (status : Byte) (s : State) : Option State :=
  if bitAt 6 d.w0.toNat then some s
  else
    let sd := getSide s k
    match ringSize sd with
    | none => none
    | some n =>
      let next := (sd.cqTail.toNat + 1) % n
      if next = sd.cqHead.toNat then none
      else
        let s := match classify s.fuses.variant (sd.cqBase.toNat + 16 * sd.cqTail.toNat) with
          | .shuttleMem m q => updShuttle s m (localWrite q (completionWords k d status sd.lap) false)
          | _ => s
        some (updSide s k fun sd => { sd with cqTail := BitVec.ofNat 12 next, lap := if next = 0 then !sd.lap else sd.lap })

/-- R197: a descriptor completes; while its record finds no room it keeps its slot. -/
def completeDescriptor (k i : Nat) (s : State) : State :=
  let d := sGet {} i (getSide s k).slots
  if !d.active then s
  else match completion (laceOf s k) (getPart s (ownerOf s (quadOfSide k))).hold.wBeat (getSide s k) i with
  | none => s
  | some status =>
    match writeCompletion k d status s with
    | none => updSide s k fun sd => { sd with slots := sPut {} i { d with finished := some status } sd.slots }
    | some s =>
      let g := quadOfSide k
      let p := ownerOf s g
      let s :=
        if bitAt 5 d.w0.toNat then
          let h := sGet 0 (bits 10 8 d.w0.toNat) (getSide s k).notify
          if h = 0 then s
          else { s with net := s.net ++ [.knotOp (.service (BitVec.ofNat 5 p)) ⟨false, 0, 0, 0⟩ h 1 1 false] }
        else s
      let s := updSide s k fun sd => { sd with slots := sPut {} i {} sd.slots, completions := sd.completions + 1 }
      let q := sGet {} g s.quadCounts
      { s with quadCounts := sPut {} g { q with completions := q.completions + 1
                                                poisoned := q.poisoned + d.poisoned.setWidth 64 } s.quadCounts }

/-! ## The side window (Tables 7-8 and 7-9) -/

def lightWord (l : LightSlot) : W64 :=
  n64 (l.offset.toNat + l.size.toNat * 2 ^ 48 + b2n l.write * 2 ^ 51 + l.thread.toNat * 2 ^ 52)

def sideStatus (sd : Side) : W64 :=
  n64 (((List.range 80).filter fun i => (sGet {} i sd.slots).active).length
    + ((List.range 24).filter fun i => (sGet {} i sd.light).active).length * 2 ^ 7 + triggersQueued sd * 2 ^ 12
    + b2n ((List.range 16).any fun l => (getLane sd l).stopped) * 2 ^ 16 + sd.completions.toNat * 2 ^ 32)

def queuedTriggers (sd : Side) : List W64 := sd.inbox.filterMap fun i => match i with
  | .trigger v => some v
  | _ => none

def sideWindowWord (sd : Side) (o : Nat) : W64 :=
  if o < 0x2000 then sGet 0 (o / 8) sd.templates
  else if o = 0x2000 then sd.lastTrigger
  else if o = 0x2008 then sd.cqLog2.setWidth 64
  else if o = 0x2010 then sd.cqBase.setWidth 64
  else if o = 0x2018 then sd.cqHead.setWidth 64
  else if o = 0x2020 then n64 (sd.cqTail.toNat + b2n sd.lap * 2 ^ 12)
  else if o = 0x2028 then sideStatus sd
  else if 0x2040 ≤ o && o < 0x2080 then sGet 0 ((o - 0x2040) / 8) sd.notify
  else if 0x2100 ≤ o && o < 0x2B00 then
    let d := sGet {} ((o - 0x2100) / 32) sd.slots
    match (o - 0x2100) / 8 % 4 with
    | 0 => d.w0
    | 1 => d.w1
    | 2 => d.w2
    | _ => d.w3
  else if 0x2B00 ≤ o && o < 0x2D80 then (sGet {} ((o - 0x2B00) / 8) sd.slots : DescSlot).moved.setWidth 64
  else if 0x2E00 ≤ o && o < 0x2E40 then (queuedTriggers sd).getD ((o - 0x2E00) / 8) 0
  else if 0x2F00 ≤ o && o < 0x2FC0 then
    let l := sGet {} ((o - 0x2F00) / 8) sd.light
    if l.active then lightWord l else 0
  else 0

/-- A write of a 64-bit word of the side window by the loader or the step service (R218). -/
def sideWindowPut (executing : Bool) (o : Nat) (v : W64) (sd : Side) : Side :=
  if o < 0x2000 then (if executing then sd else { sd with templates := sPut 0 (o / 8) v sd.templates })
  else if o = 0x2000 then
    let (sd', ok) := enqueueTrigger v sd
    if ok then sd' else { sd with stalled := sd.stalled ++ [v] }
  else if o = 0x2008 then { sd with cqLog2 := v.setWidth 4 }
  else if o = 0x2010 then { sd with cqBase := v.setWidth 48 }
  else if o = 0x2018 then { sd with cqHead := v.setWidth 12 }
  else if 0x2040 ≤ o && o < 0x2080 then { sd with notify := sPut 0 ((o - 0x2040) / 8) v sd.notify }
  else sd

end Sys2Proof.Machine
end

