-- ==== Sys2Proof/Machine/Beats.lean ====
section
/-! DEFINITION. The W-beats of a partition, its hold and its halt (07 R206 to R213, 03 R103 to R105), and what commands do in
one tile in its current beat. -/

namespace Sys2Proof.Machine

/-! ## Whether a partition executes (R207, R211) -/

def noReq : HoldReq := ⟨false, 0, 0, 0⟩

/-- The requests raised Hlat W-beats ago. -/
def seenReq (h : Hold) : HoldReq := h.hist.getD (h.hlat.toNat - 1) noReq

def haltInForce (h : Hold) : Bool :=
  h.frozen || h.noMore || (match h.haltAt with
    | some a => a + h.hlat.toNat ≤ h.wBeat
    | none => false)

/-- A replay's freeze for a stamped input is in force (R449). -/
def stampHeld (h : Hold) : Bool := h.stepRuns && !haltInForce h && h.stampAt == some h.sBeat

/-- The partition executes in this W-beat. -/
def executes (h : Hold) : Bool := h.stepRuns && !haltInForce h && !(seenReq h).q && !stampHeld h

/-- A debug hold has taken effect: held, and the debug source requested Hlat W-beats ago. -/
def debugHeld (h : Hold) : Bool := h.stepRuns && !haltInForce h && h.debug && h.debugAt + h.hlat.toNat ≤ h.wBeat

/-- `exec` of Table 2-9. -/
def tileExec (h : Hold) : Nat :=
  if h.frozen then 3 else if !h.stepRuns then 0 else if haltInForce h then 3 else if executes h then 1 else if debugHeld h || stampHeld h then 4 else 2

/-- R66: the partition's tiles are executing. -/
def tilesExecute (h : Hold) : Bool := tileExec h == 1 || tileExec h == 2

/-! ## One tile in its partition's beat -/

/-- What a neighbour drives towards a tile: cut at the edge of the partition, four beats later across a seam (R58, R60, R110). -/
def neighbourOut (s : State) (p x y nx ny : Nat) : TileOut :=
  if ownerOf s (quadOf nx ny) ≠ p then {}
  else (getTile s (tileKey nx ny)).outHist.getD (if dieOf x y = dieOf nx ny then 0 else 4) {}

def ctxOf (s : State) (p x y : Nat) : BeatCtx :=
  { tileCtx s p x y with
    north := if y = 0 then {} else neighbourOut s p x y x (y - 1)
    west := if x = 0 then {} else neighbourOut s p x y (x - 1) y }

/-- The tile as a command of the current beat finds it. -/
def inBeat (word : W128) (t : Tile) : Tile :=
  { t with beat := { t.beat with word := word, isHead := tileIsHead t
                                 inDelay := tileIsHead t && t.issue.delayLeft ≠ 0 && !t.beat.branch } }

/-- The tile of a slot command executes in this W-beat. -/
def tileRuns (s : State) (a : TileAt) : Bool :=
  let p := ownerOfAt s a
  p ≠ 0 && executes (getPart s p).hold

/-- A command acts on a tile in the current S-beat of its partition; while that does not execute, nothing happens (log 2). -/
def slotCmd (s : State) (a : TileAt) (word : W128) (f : BeatCtx → Tile → Tile) : Host.Outcome State Fault Refusal :=
  if tileRuns s a then
    let p := ownerOfAt s a
    let x := a.x.toNat
    let y := a.y.toNat
    .next (putTileChecked p x y (f (ctxOf s p x y) (inBeat word (getTile s (atKey a)))) s)
  else .next s

/-- The head issues a word that a command names (R71, R92). -/
def issueCmd (header body : Nat) (c : BeatCtx) (t : Tile) : Tile :=
  let w : W128 := BitVec.ofNat 128 header <<< 124 ||| BitVec.ofNat 128 body
  let i := t.issue
  if !t.beat.isHead then (if illegalWord w then raiseIllegalWord c w t else runSlots c (if header = 2 then w else 0) t)
  else if t.beat.pre.isSome || i.stopped || i.ended || i.idleLeft ≠ 0 then t
  else
    let t := { t with issue := { i with curAddr := i.nextAddr } }
    let (t, x, driven) := issueWord c w t
    let t := { t with beat := { t.beat with pre := driven, loopBack := takesBack t.issue t.beat.loopEnd } }
    runSlots c x t

/-! ## The W-beat -/

/-- Requests of the partition's tiles, as (code, tile key). -/
def requestsOf (s : State) (h : Hold) (ts : List (Nat × Nat)) : List (Nat × Nat) :=
  ts.flatMap fun e =>
    let t := getTile s (tileKey e.1 e.2)
    let fault := if t.fault.valid && h.haltAt == some t.fault.wBeat.toNat then [8] else []
    (tileRequests t ++ fault).map fun r => (r, tileKey e.1 e.2)

/-- The record of a W-beat's requests: the lowest code, and its lowest y, then x (log 13). -/
def summarise (h : Hold) (rs : List (Nat × Nat)) : HoldReq :=
  let out := 2 ^ 40
  let rs := rs ++ (if h.change then [(6, out)] else []) ++ (if h.debug then [(7, out)] else [])
    ++ (if h.haltAt.isSome then [(8, out)] else [])
  match rs with
  | [] => ⟨false, 0, 0, h.sBeat⟩
  | r :: rest =>
    let b := rest.foldl (fun (m : Nat × Nat) e => if e.1 < m.1 || (e.1 == m.1 && e.2 < m.2) then e else m) r
    ⟨true, BitVec.ofNat 8 b.1, if b.2 = out then 0xFFFFFFFF else BitVec.ofNat 32 (b.2 % 1024 + b.2 / 1024 * 2 ^ 16), h.sBeat⟩

def sidesOfPart (s : State) (p : Nat) : List Nat := (quadsOfPart s p).flatMap sidesOfQuad

/-- What each of a partition's tiles does, from the outputs its neighbours had before the beat. -/
def eachTile (s : State) (p : Nat) (f : BeatCtx → Tile → Tile) : State :=
  (tilesOfPart s p).foldl (fun acc e =>
    putTileChecked p e.1 e.2 (f (ctxOf s p e.1 e.2) (getTile acc (tileKey e.1 e.2))) acc) s

/-- Window reads that have been served and belong to no tag are answered (R66). -/
def answerReads (ts : List (Nat × Nat)) (s : State) : State :=
  ts.foldl (fun s e =>
    let t := getTile s (tileKey e.1 e.2)
    if t.reads.all fun r => r.data.isNone || r.tag.isSome then s
    else
      let done := t.reads.filter fun r => r.data.isSome && r.tag.isNone
      let s := done.foldl (fun s r => answer 0 (r.data.getD []) s) s
      putTile s (tileKey e.1 e.2) { t with reads := t.reads.filter fun r => r.data.isNone || r.tag.isSome }) s

/-- The tracks and sides of a partition in one W-beat. -/
def drainTracks (p wBeat : Nat) (s : State) : State :=
  (sidesOfPart s p).foldl (fun s k => (List.range 16).foldl (fun s l => drainBeat k l wBeat s) s) s

def deliverTracks (p wBeat : Nat) (s : State) : State :=
  (sidesOfPart s p).foldl (fun s k =>
    let s := (List.range 16).foldl (fun s l => deliverBeat k l wBeat s) s
    if sideBeat k wBeat then placeBeat k wBeat s else s) s

/-- The debug source's part of a W-beat (R435): its count, and the hold it leads to, once. -/
def debugBeat (p : Nat) (s : State) : State :=
  let q := getPart s p
  if !q.hold.debug then s
  else
    let s := updPart s p fun q => { q with debugging := { q.debugging with heldWBeats := q.debugging.heldWBeats + 1 } }
    if debugHeld q.hold && q.debugging.state = 1 then
      assertEvent (0x340 + 4 * (p - 1)) (n64 q.hold.sBeat) (updPart s p fun q => { q with debugging := { q.debugging with state := 2, target := none } })
    else s

/-- R353, cases 1 and 3: in the W-beat of a change point another source requests, so the change source raises nothing. -/
def deferChange (p : Nat) (s : State) : State :=
  let s := updPart s p fun q => { q with clock := { q.clock with
    changeFrom := none, deferred := q.clock.deferred + 1, due := q.clock.due + 1 } }
  updHold s p fun h => { h with change := false }

/-- The W-beat in which the change source first requests is this one, and another source requests in it. -/
def changeMeets (s : State) (p : Nat) (rs : List (Nat × Nat)) : Bool :=
  let q := getPart s p
  q.hold.change && q.clock.changeFrom == some q.hold.wBeat && (!rs.isEmpty || q.hold.debug || q.hold.haltAt.isSome)

/-- The request of a change ends after Hlat + 192 W-beats (R353). -/
def endChange (p : Nat) (s : State) : State :=
  let q := getPart s p
  match q.clock.changeFrom with
  | some c =>
    if c + q.hold.hlat.toNat + 192 ≤ q.hold.wBeat then
      updHold (updPart s p fun q => { q with clock := { q.clock with changeFrom := none } }) p fun h => { h with change := false }
    else s
  | none => s

/-- One W-beat of a partition: tracks, tiles, requests and their tests, the sides, and the counts of the hold. The tracks stand
while a snapshot runs (R438). -/
def partBeat (p : Nat) (held : Bool) (s : State) : State :=
  let ts := tilesOfPart s p
  let h := (getPart s p).hold
  let w := h.wBeat
  let before := requestsOf s h ts
  let flows := (getPart s p).debugging.state ≠ 3
  let s := if flows then drainTracks p w s else s
  let s := eachTile s p fun c t => drainHigh (if held then tileHeldBeat (haltInForce h) c t else tileBeat c t)
  let rs := before ++ requestsOf s (getPart s p).hold ts
  let s := if changeMeets s p rs then deferChange p s else s
  let rec_ := summarise (getPart s p).hold rs
  let s := eachTile s p fun c t => retestWaits c (retestGates t)
  let s := if flows then deliverTracks p w s else s
  let s := answerReads ts s
  let s := updHold s p fun h => { h with hist := (rec_ :: h.hist).take 256, wBeat := w + 1 }
  debugBeat p (endChange p s)

/-- EXECUTING_W_BEAT. -/
def partExecutes (p : Nat) (s : State) : State :=
  let s := updHold s p fun h => if h.inRun then { h with inRun := false, lastHeld := h.run, run := 0, counted := 0 } else h
  let s := partBeat p false s
  updHold s p fun h => { h with sBeat := h.sBeat + 1 }

/-- HELD_W_BEAT. Between steps no run is counted. -/
def partHeld (p : Nat) (s : State) : State :=
  let s := updHold s p fun h =>
    if !h.stepRuns then h
    else
      let h := { h with held := h.held + 1, run := h.run + 1, counted := if h.debug || stampHeld h then 0 else h.counted + 1 }
      if h.inRun then h
      else
        let r := seenReq h
        { h with inRun := true, run := 1, counted := b2n (!(h.debug || stampHeld h)), holds := h.holds + 1, lastCause := r.cause, lastTile := r.tile, lastSBeat := r.sBeat }
  partBeat p true s

def partExists (s : State) (p : Nat) : Bool := p ≠ 0 && (getPart s p).active.quads ≠ 0

/-! ## Halt, freeze and timeout (R103 to R105, R211, R212, R235) -/

/-- A fault that a knot reply reported (R240): its detail carries the reply's status. -/
def fromReply (r : FaultRec) : Bool := 0x11 ≤ r.code.toNat && r.code.toNat ≤ 0x13 && bits 15 8 r.detail.toNat ≠ 0

/-- R105: what a non-head tile's record takes from its head's trace at the freeze. -/
def traceIntoRecord (s : State) (hlat : Nat) (t : Tile) : Tile :=
  let r := t.fault
  let d := r.issueOffset.toNat
  if !r.valid || r.head || r.slot = 7 || fromReply r || 255 < d + hlat || r.sBeat.toNat < d then t
  else
    let e := (sGet 0 ((r.sBeat.toNat - d) % 256) (getTile s (tileKey r.headX.toNat r.headY.toNat)).trace).toNat
    { t with fault := { r with wordAddr := BitVec.ofNat 7 (bits 6 0 e), branchTaken := bitAt 7 e, loopEnd := bitAt 8 e
                               loopBack := bitAt 9 e, addrValid := true } }

/-- A knot held locked by a tile of partition p. -/
def lockedByTileOf (s : State) (p : Nat) (k : Knot) : Bool :=
  k.state == 1 && k.ownerTile && ownerOf s (quadOf k.ownerX.toNat k.ownerY.toNat) == p

/-- The knots of a store that hold a lock of which `f` is true break; how many did. -/
def breakKnots (f : Knot → Bool) (m : Sparse Knot) : Sparse Knot × Nat :=
  (m.map fun e => if f e.2 then (e.1, { e.2 with state := 2 }) else e, (m.filter fun e => f e.2).length)

/-- R235: every knot of the package that fulfils `f` breaks, and counts for partition `p`. -/
def breakAll (p : Nat) (f : Knot → Bool) (s : State) : State :=
  let nT := (s.tiles.flatMap fun r => r.2.map fun e => (breakKnots f e.2.knots).2).sum
  let nS := (s.shuttles.map fun e => (breakKnots f e.2.knots).2).sum
  let s := { s with
    tiles := s.tiles.map fun r => (r.1, r.2.map fun e => (e.1, { e.2 with knots := (breakKnots f e.2.knots).1 }))
    shuttles := s.shuttles.map fun e => (e.1, wakeBroken { e.2 with knots := (breakKnots f e.2.knots).1 }) }
  if p = 0 then s else updPart s p fun q => { q with sync := { q.sync with broken := q.sync.broken + BitVec.ofNat 32 (nT + nS) } }

/-- The freeze of a halted partition. -/
def freeze (p : Nat) (s : State) : State :=
  let hlat := (getPart s p).hold.hlat.toNat
  let s' := (tilesOfPart s p).foldl (fun acc e =>
    putTile acc (tileKey e.1 e.2) (traceIntoRecord s hlat (getTile acc (tileKey e.1 e.2)))) s
  let s' := breakAll p (lockedByTileOf s p) s'
  let s' := (sidesOfPart s' p).foldl (fun acc k => updSide acc k abortSlots) s'
  updHold s' p fun h => { h with frozen := true }

/-- R212. -/
def timeoutHold (p : Nat) (s : State) : State :=
  let s := (tilesOfPart s p).foldl (fun s e =>
    let t := getTile s (tileKey e.1 e.2)
    if (tileRequests t).isEmpty then s
    else putTile s (tileKey e.1 e.2) (raise (tileCtx s p e.1 e.2) 0x15 7 0 t)) s
  raiseHalt p s

def execHoldTimeout (p : PartNo) (s : State) : Host.Outcome State Fault Refusal :=
  let h := (getPart s p).hold
  .next (if partExists s p && h.haltAt.isNone && h.limit.toNat ≤ h.counted && h.inRun then timeoutHold p s else s)

end Sys2Proof.Machine
end

