-- ==== Sys2Proof/Machine/Channels.lean ====
section
/-! DEFINITION. What a shuttle holds: local memory, knots, channels and combining queues at their home (08 R229 to R249). -/

namespace Sys2Proof.Machine

/-! ## Knots of a shuttle (R229 to R235) -/

/-- One operation at a shuttle's knot, with the count of its waiters. -/
def shuttleKnot (op n : Nat) (u : KnotUser) (first : Bool) (k : Nat) (h : Shuttle) : Shuttle × KnotReply :=
  let (kn, r) := knotApply op n u (sGet {} k h.knots)
  ({ h with knots := sPut {} k (countWaiter op u first r kn) h.knots }, r)

/-! ## Channels (R241 to R246) -/

def getChannel (h : Shuttle) (c : Nat) : Channel := sGet {} c h.channels
def putChannel (c : Nat) (v : Channel) (h : Shuttle) : Shuttle := { h with channels := sPut {} c v h.channels }
def getQueue (h : Shuttle) (q : Nat) : Queue := sGet {} q h.queues
def putQueue (q : Nat) (v : Queue) (h : Shuttle) : Shuttle := { h with queues := sPut {} q v h.queues }

def queueWidth (q : Queue) : Nat := q.widthM1.toNat + 1
def slotBytes (q : Queue) : Nat := 16 + 4 * queueWidth q

/-- The rings and accumulator areas in use, as base and size. -/
def usedAreas (h : Shuttle) : List (Nat × Nat) :=
  ((List.range 64).filterMap fun c =>
    let e := getChannel h c
    if e.opened then some (e.base.toNat, e.size.toNat) else none)
  ++ ((List.range 16).filterMap fun q =>
    let e := getQueue h q
    if e.opened then some (e.base.toNat, e.slots.toNat * slotBytes e) else none)

/-- R241: an area that does not stand where it may. -/
def misplaced (h : Shuttle) (base size : Nat) : Bool :=
  base % 256 ≠ 0 || 0x40000 < base + size || (usedAreas h).any fun a => base < a.1 + a.2 && a.1 < base + size

def usedBytes (c : Channel) : Nat :=
  let u := (c.wrPos.toNat + c.size.toNat - c.rdPos.toNat) % max c.size.toNat 1
  if u = 0 && c.produced ≠ c.consumed then c.size.toNat else u

def round16 (n : Nat) : Nat := (n + 15) / 16 * 16

/-- Source word of a record header (Table 8-6). -/
def tileSource (x y : BitVec 10) (chip : W16) : W64 :=
  n64 (x.toNat + y.toNat * 2 ^ 16 + 2 ^ 38 + chip.toNat * 2 ^ 40)

def threadSource (thread : BitVec 12) (chip : W16) : W64 := n64 (thread.toNat * 2 ^ 26 + chip.toNat * 2 ^ 40)

/-- R242, R243: a message of `len` bytes becomes a record of the channel; none when the ring has no room. -/
def writeRecord (c : Nat) (src : W64) (payload : List (Pz 64)) (len : Nat) (h : Shuttle) : Option Shuttle :=
  let e := getChannel h c
  let size := e.size.toNat
  let r := 16 + round16 len
  let tail := size - e.wrPos.toNat
  let pad := decide (tail < r)
  if size - usedBytes e < (if pad then tail + r else r) then none
  else
    let base := e.base.toNat
    let h := if pad then localWords [⟨n64 (tail - 16 + 2 ^ 17), false⟩, ⟨0, false⟩] (base + e.wrPos.toNat) h else h
    let at_ := if pad then 0 else e.wrPos.toNat
    let seq := e.produced + 1
    let words := payload.take ((len + 7) / 8)
    let last := len % 8
    let words := if last = 0 then words
      else words.dropLast ++ (words.getLast?.toList.map fun w => { w with data := n64 (w.data.toNat % 2 ^ (8 * last)) })
    let h := localWords [⟨n64 (len + b2n (words.any (·.poison)) * 2 ^ 18 + seq.toNat * 2 ^ 32), false⟩, ⟨src, false⟩] (base + at_) h
    let h := localWords (words ++ List.replicate (round16 len / 8 - words.length) ⟨0, false⟩) (base + at_ + 16) h
    let h := putChannel c { e with wrPos := BitVec.ofNat 18 ((at_ + r) % size), produced := seq } h
    some (if e.notify then (shuttleKnot 1 1 ⟨false, 0, 0, 0⟩ false e.knot.toNat h).1 else h)

def refuseSend (c : Nat) (status : Nat) (h : Shuttle) : Shuttle × Nat :=
  (putChannel c { getChannel h c with refusals := (getChannel h c).refusals + 1 } h, status)

/-- A message for channel `c`: status of Table 8-3, in the order of R244 from `closed` on. -/
def channelAccept (c : Nat) (src : W64) (payload : List (Pz 64)) (len : Nat) (h : Shuttle) : Shuttle × Nat :=
  let e := getChannel h c
  if !e.opened then refuseSend c 0x09 h
  else if e.maxMsg.toNat < len then refuseSend c 0x0A h
  else match writeRecord c src payload len h with
  | some h => (h, 0)
  | none => refuseSend c 0x08 h

/-! ## Combining queues (R247 to R249) -/

structure CqSlot where
  key    : W32
  count  : Nat
  busy   : Bool
  poison : Bool
  deriving DecidableEq, Repr

def slotAt (q : Queue) (i : Nat) : Nat := q.base.toNat + i * slotBytes q

def readCqSlot (h : Shuttle) (q : Queue) (i : Nat) : CqSlot :=
  let v := ofLe (localRead h (slotAt q i) 8)
  ⟨BitVec.ofNat 32 v, bits 47 32 v, bitAt 48 v, bitAt 49 v⟩

def writeCqSlot (q : Queue) (i : Nat) (e : CqSlot) (h : Shuttle) : Shuttle :=
  localWrite (slotAt q i)
    (leBytes 8 (e.key.toNat + e.count * 2 ^ 32 + b2n e.busy * 2 ^ 48 + b2n e.poison * 2 ^ 49) ++ leBytes 8 0) false h

def cqValue (h : Shuttle) (q : Queue) (i k : Nat) : W32 := BitVec.ofNat 32 (ofLe (localRead h (slotAt q i + 16 + 4 * k) 4))

/-- A slot of the queue is open for a key. -/
def slotOpenFor (h : Shuttle) (q : Queue) (key : W32) (i : Nat) : Bool :=
  let e := readCqSlot h q i
  e.busy && e.key == key && e.count < q.contributors.toNat

/-- R249: a finished slot writes its message and frees, is discarded where the channel is not open, or waits for room. `s`: the
shuttle's number. -/
def emitSlot (s : Nat) (chip : W16) (qn i : Nat) (h : Shuttle) : Shuttle :=
  let q := getQueue h qn
  let e := readCqSlot h q i
  let w := queueWidth q
  let c := q.channel.toNat
  let free (h : Shuttle) : Shuttle := writeCqSlot q i ⟨0, 0, false, false⟩ h
  if !(getChannel h c).opened then free (refuseSend c 0x09 h).1
  else
    let bytes := leBytes 8 e.key.toNat ++ localRead h (slotAt q i + 16) (4 * w)
    let words : List (Pz 64) := (List.range ((bytes.length + 7) / 8)).map fun j => ⟨n64 (ofLe (bytesAt bytes (8 * j) 8)), e.poison⟩
    match writeRecord c (threadSource (BitVec.ofNat 12 (16 * s)) chip) words (8 + 4 * w) h with
    | some h => free h
    | none => h

def refuseAdd (qn : Nat) (status : Nat) (h : Shuttle) : Shuttle × Nat :=
  (putQueue qn { getQueue h qn with refusals := (getQueue h qn).refusals + 1 } h, status)

/-- A contribution (R248). A slot that it finishes is closed, and waits for its message to be written. -/
def queueAccept (qn : Nat) (payload : List (Pz 64)) (len : Nat) (h : Shuttle) : Shuttle × Nat :=
  let q := getQueue h qn
  let w := queueWidth q
  if !q.opened then refuseAdd qn 0x09 h
  else if len ≠ 8 + 4 * w then refuseAdd qn 0x14 h
  else
    let bytes := payload.flatMap fun v => leBytes 8 v.data.toNat
    let key : W32 := BitVec.ofNat 32 (ofLe (bytes.take 4))
    let slots := List.range q.slots.toNat
    let named := slots.find? (slotOpenFor h q key)
    match named, slots.find? (fun i => !(readCqSlot h q i).busy) with
    | none, none => refuseAdd qn 0x08 h
    | some i, _ => (addTo i (readCqSlot h q i) bytes h, 0)
    | none, some i =>
      let h := localWrite (slotAt q i + 16) (List.replicate (4 * w) 0) false h
      (addTo i ⟨key, 0, true, false⟩ bytes h, 0)
where
  addTo (i : Nat) (e : CqSlot) (bytes : Bytes) (h : Shuttle) : Shuttle :=
    let q := getQueue h qn
    let vals := (List.range (queueWidth q)).flatMap fun k =>
      leBytes 4 (accFP32 (cqValue h q i k) (decodeCode fmtFP32 (ofLe (bytesAt bytes (8 + 4 * k) 4)))).toNat
    let h := localWrite (slotAt q i + 16) vals false h
    let e' : CqSlot := { e with count := e.count + 1, poison := e.poison || payload.any (·.poison) }
    writeCqSlot q i e' h

/-! ## The control window (Tables 8-8, 8-9, 8-11) -/

def tagKindCode : ReqKind → Nat
  | .load .. => 0
  | .store .. => 1
  | .get .. => 2
  | .put .. => 3
  | .fetch => 4
  | .knot .. => 5
  | .channel .. => 6
  | .desc .. => 7

def tagsOf (h : Shuttle) (t : Nat) : List Nat :=
  (List.range 48).filter fun i => (sGet {} i h.tags : Tag).valid && (sGet {} i h.tags : Tag).thread.toNat == t

def threadWord (h : Shuttle) (t : Nat) : W64 :=
  let th := getThread h t
  n64 (th.state.toNat + b2n th.machine * 2 ^ 3 + (tagsOf h t).length * 2 ^ 4 + th.switches.toNat * 2 ^ 32)

def shuttleStatus (h : Shuttle) : W64 :=
  n64 (((List.range 48).filter fun i => (sGet {} i h.tags : Tag).valid).length
    + maskOf 16 (fun t => (getThread h t).state.toNat ≤ 1) * 2 ^ 16 + h.tagStalls.toNat * 2 ^ 32)

def channelWord (c : Channel) : Nat → W64
  | 0 => n64 (c.base.toNat + c.size.toNat * 2 ^ 18 + c.maxMsg.toNat * 2 ^ 36 + b2n c.opened * 2 ^ 53 + c.knot.toNat * 2 ^ 54
      + b2n c.notify * 2 ^ 62)
  | 1 => n64 (c.wrPos.toNat + c.rdPos.toNat * 2 ^ 18 + c.discarded.toNat * 2 ^ 36)
  | 2 => two32 c.produced c.consumed
  | _ => two32 c.refusals c.drift

def queueWord (h : Shuttle) (q : Queue) (i : Nat) : W64 :=
  let busy := ((List.range q.slots.toNat).filter fun j => (readCqSlot h q j).busy).length
  if i = 0 then
    n64 (q.channel.toNat + b2n q.opened * 2 ^ 6 + q.widthM1.toNat * 2 ^ 8 + q.contributors.toNat * 2 ^ 24
      + q.slots.toNat * 2 ^ 40 + (if q.opened then busy else 0) * 2 ^ 48)
  else two32 (q.base.setWidth 32) q.refusals

/-- A 64-bit word of the control window. -/
def shuttleCtlWord (h : Shuttle) (o : Nat) : W64 :=
  let i := o / 8 % 2
  if o < 0x1000 then
    let k : Knot := sGet {} (o / 16) h.knots
    if i = 0 then knotWord k else n64 (k.ownerX.toNat + k.ownerY.toNat * 2 ^ 16)
  else if o < 0x1100 then
    let t := (o - 0x1000) / 16
    if i = 0 then threadWord h t else (getThread h t).pc
  else if o < 0x1400 then
    let g : Tag := sGet {} ((o - 0x1100) / 16) h.tags
    if i = 0 then n64 (b2n g.valid + (g.kind.map tagKindCode).getD 0 * 2 + g.thread.toNat * 2 ^ 4 + g.size.toNat * 2 ^ 8)
    else g.address
  else if o < 0x1C00 then channelWord (getChannel h ((o - 0x1400) / 32)) (o / 8 % 4)
  else if o < 0x1D00 then queueWord h (getQueue h ((o - 0x1C00) / 16)) i
  else if o < 0x2100 then
    let e : Sender := sGet {} ((o - 0x1D00) / 16) h.senders
    if i = 0 then e.handle else e.acked.setWidth 64
  else if o = 0x2100 then shuttleStatus h
  else 0

/-- A write of a word of the control window by the step service or the loader (R253): `produced` and `consumed` are the only
fields that it changes (Table 8-11). -/
def shuttleCtlPut (o : Nat) (v : W64) (h : Shuttle) : Shuttle :=
  if 0x1400 ≤ o && o < 0x1C00 && o % 32 = 16 then
    let c := (o - 0x1400) / 32
    putChannel c { getChannel h c with produced := v.setWidth 32, consumed := (v >>> 32).setWidth 32 } h
  else h

/-! ## Sender tables (R244) -/

/-- The entry of a handle, or a free one; none when a 65th would be needed. -/
def senderEntry (handle : W64) (m : Sparse Sender) : Option Nat :=
  match (List.range 64).find? fun i => (sGet {} i m : Sender).handle == handle with
  | some i => some i
  | none => (List.range 64).find? fun i => (sGet {} i m : Sender) == {}

def countAcked (handle : W64) (m : Sparse Sender) : Sparse Sender :=
  match senderEntry handle m with
  | some i => sPut {} i ⟨handle, (sGet {} i m : Sender).acked + 1⟩ m
  | none => m

/-! ## Homes (R17, R229, R241, R247, R293) -/

inductive Home
  | tileKnot (x y k : Nat)
  | shuttleKnot (n k : Nat)
  | channel (n c : Nat)
  | queue (n q : Nat)
  | trigger (k : Nat)
  | other
  deriving DecidableEq, Repr

/-- What an offset names for a message or a knot operation. -/
def homeOf : Region → Home
  | .tile x y o => if 0x2A00 ≤ o && o < 0x2A40 && o % 8 = 0 then .tileKnot x y ((o - 0x2A00) / 8) else .other
  | .shuttleCtl n o =>
    if o < 0x1000 && o % 16 = 0 then .shuttleKnot n (o / 16)
    else if 0x1400 ≤ o && o < 0x1C00 && o % 32 = 0 then .channel n ((o - 0x1400) / 32)
    else if 0x1C00 ≤ o && o < 0x1D00 && o % 16 = 0 then .queue n ((o - 0x1C00) / 16)
    else .other
  | .sideWin k o => if o = 0x2000 then .trigger k else .other
  | _ => .other

/-- Package offset of the control window of a shuttle (R253). -/
def ctlWindow (n : Nat) : Nat := 0x300000000000 + n / 32 * 0x1000000 + 0x400000 + n % 32 * 0x10000

end Sys2Proof.Machine
end

