-- ==== Sys2Proof/Machine/Codes.lean ====
section
/-! DEFINITION. The check codes that the manual takes from public standards (log 16): CRC-32 of IEEE 802.3 and CRC-32C. -/

namespace Sys2Proof.Machine

/-- One bit of a reflected CRC with polynomial `p`. -/
def crcBit (p : Nat) (c : Nat) : Nat := if c % 2 = 1 then Nat.xor (c / 2) p else c / 2

def crcByte (p : Nat) (c : Nat) (b : Byte) : Nat :=
  let c := Nat.xor c b.toNat
  crcBit p (crcBit p (crcBit p (crcBit p (crcBit p (crcBit p (crcBit p (crcBit p c)))))))

def crc (p : Nat) (bs : Bytes) : W32 := BitVec.ofNat 32 (Nat.xor (bs.foldl (crcByte p) 0xFFFFFFFF) 0xFFFFFFFF)

/-- CRC-32 of IEEE 802.3. -/
def crc32 (bs : Bytes) : W32 := crc 0xEDB88320 bs

/-- CRC-32C. -/
def crc32c (bs : Bytes) : W32 := crc 0x82F63B78 bs

end Sys2Proof.Machine
end

