-- ==== Sys2Proof/Machine/Links.lean ====
section
/-! DEFINITION. Chip ports: lanes and states, packets, credits, departure and retransmission (11 R289 to R306). -/

namespace Sys2Proof.Machine

/-! ## Ports -/

def getPort (s : State) (k : Nat) : Port := sGet {} k s.links.ports
def putPort (s : State) (k : Nat) (v : Port) : State := { s with links := { s.links with ports := sPut {} k v s.links.ports } }
def updPort (s : State) (k : Nat) (f : Port → Port) : State := putPort s k (f (getPort s k))

def getRoute (s : State) (p : Nat) : Route := sGet {} p s.routes
def putRoute (s : State) (p : Nat) (v : Route) : State := { s with routes := sPut {} p v s.routes }
def updRoute (s : State) (p : Nat) (f : Route → Route) : State := putRoute s p (f (getRoute s p))

/-- The port of a lane pair by the map that the installer writes: the factory's, k / 4, until it is written (R289). -/
def mapOf (s : State) (k : Nat) : Byte := sGet (BitVec.ofNat 8 (k / 4 + 1)) k s.links.laneMap

/-- R306. -/
def hopBound (p : Port) : Nat := if p.state = 2 then 1000 + 2 * p.rtt.toNat else 0
def payloadRate (p : Port) : Nat := if p.state = 2 then 24 * p.lanes else 0

def portsOfPart (s : State) (p : Nat) : List Nat :=
  (List.range 12).filter fun k => bitAt k (getPart s p).active.ports.toNat && portFitted s.fuses.variant k

def upPorts (s : State) (p : Nat) : List Nat := (portsOfPart s p).filter fun k => (getPort s k).state == 2

/-- R_port and t_hop of a partition (R306). -/
def routeFigures (s : State) (p : Nat) : Nat × Nat :=
  match upPorts s p with
  | [] => (0, 0)
  | k :: r =>
    (r.foldl (fun a j => min a (payloadRate (getPort s j))) (payloadRate (getPort s k)),
     r.foldl (fun a j => max a (hopBound (getPort s j))) (hopBound (getPort s k)))

/-! ## Packets (Table 11-2) -/

def packetWord0 (p : Packet) : Nat :=
  p.destChip.toNat + p.srcChip.toNat * 2 ^ 16 + p.cls.toNat * 2 ^ 32 + p.fseq.toNat * 2 ^ 36 + p.lseq.toNat * 2 ^ 48
    + p.hops.toNat * 2 ^ 60

def packetWord1 (p : Packet) : Nat :=
  p.target.toNat + p.length.toNat * 2 ^ 48 + b2n p.first * 2 ^ 59 + b2n p.last * 2 ^ 60 + b2n p.poison * 2 ^ 61
    + b2n p.flowStart * 2 ^ 62

def packetWord2 (p : Packet) : Nat :=
  p.flow.toNat + p.msgLen.toNat * 2 ^ 16 + p.srcThread.toNat * 2 ^ 33 + p.tag.toNat * 2 ^ 45

/-- R294: over words 0 to 2, the low half of word 3, and the payload. -/
def packetCrc (p : Packet) : W32 :=
  crc32 (leBytes 8 (packetWord0 p) ++ leBytes 8 (packetWord1 p) ++ leBytes 8 (packetWord2 p) ++ leBytes 4 p.operand.toNat ++ p.payload)

def lineBytes (p : Packet) : Nat := 32 + p.payload.length

/-- Credits of 32 bytes that a packet takes (R297). -/
def creditsOf (p : Packet) : Nat := (lineBytes p + 31) / 32

def chipFlow (chip flow : W16) : Nat := chip.toNat * 65536 + flow.toNat

/-! ## Sending a message (R294, R301, R303, R304) -/

/-- What a message carries besides its bytes. -/
structure Outgoing where
  chip    : W16
  cls     : BitVec 4
  target  : BitVec 48
  flow    : W16
  thread  : BitVec 12
  tag     : BitVec 6
  operand : W32
  deriving DecidableEq, Repr

/-- Poison of the words of a piece of a message. -/
def pieceMarks (marks : List Bool) (i : Nat) : List Bool := (marks.drop (128 * i)).take 128

/-- The packets of a message; `fseq` counts from `start`. -/
def packetsOf (s : State) (o : Outgoing) (bytes : Bytes) (marks : List Bool) (start : BitVec 12) (restart : Bool) : List Packet :=
  let n := max 1 ((bytes.length + 1023) / 1024)
  (List.range n).map fun i =>
    let part := (bytes.drop (1024 * i)).take 1024
    { destChip := o.chip, srcChip := s.links.chip, cls := o.cls, fseq := start + BitVec.ofNat 12 i, lseq := 0, hops := 0
      target := o.target, length := BitVec.ofNat 11 part.length, first := i == 0, last := i + 1 == n
      poison := (pieceMarks marks i).any id, flowStart := restart && i == 0, flow := o.flow
      msgLen := if i = 0 then BitVec.ofNat 17 bytes.length else 0, srcThread := o.thread, tag := o.tag
      operand := o.operand, crc := 0, payload := part }

/-- Classes that travel in flows (Table 11-3). -/
def flowClass (c : BitVec 4) : Bool := c.toNat < 8 || c == 10

/-- Payloads that a partition sends in a step, by destination chip and flow (R445). -/
def foldSent (p key : Nat) (bytes : Bytes) (s : State) : State :=
  updPart s p fun q => { q with recd := { q.recd with sent := sUpd [] key (fun b => b ++ bytes) q.recd.sent } }

/-- A message of partition `p` for another package enters the departure side; false where the chip is unreachable. During a replay
it goes into the output digest and no further (R448). -/
def sendMessage (p : Nat) (o : Outgoing) (bytes : Bytes) (marks : List Bool) (origin : MsgFrom) (s : State) : State × Bool :=
  let r := getRoute s p
  if (getPart s p).recd.state = 2 then (foldSent p (chipFlow o.chip o.flow) bytes s, true)
  else if sGet false o.chip.toNat r.unreach && flowClass o.cls then (s, false)
  else
    let key := chipFlow o.chip o.flow
    let f := sGet {} key r.flows
    let live := r.waiting.any (fun t => t.pk.destChip == o.chip && t.pk.flow == o.flow && t.pk.srcChip == s.links.chip)
      || r.retained.any (fun t => t.pk.destChip == o.chip && t.pk.flow == o.flow)
    let restart := flowClass o.cls && (!f.used || (!live && f.clear + 1000000 ≤ s.nowNs))
    let start : BitVec 12 := if restart || !flowClass o.cls then 0 else f.next
    let ps := packetsOf s o bytes marks start restart
    let txs := ps.map fun pk => ({ pk := pk, origin := origin, transit := false, sent := none, port := 0, tries := 0 } : TxPacket)
    let f' : FlowTx := { f with next := start + BitVec.ofNat 12 ps.length, used := true }
    let s := putRoute s p { r with waiting := r.waiting ++ txs
                                   flows := if flowClass o.cls then sPut {} key f' r.flows else r.flows }
    (foldSent p key bytes s, true)

/-! ## Departure (R297, R299, R300, R303) -/

/-- Usable candidates of partition `p` for a chip. -/
def candidates (s : State) (p : Nat) (chip : W16) : List Nat :=
  (upPorts s p).filter fun k => bitAt k (sGet 0 chip.toNat (getRoute s p).table).toNat

def queuedBytes (p : Port) : Nat := (p.replay.map lineBytes).sum

/-- R299: fewest bytes queued, then lowest number, among those whose credits cover the packet. -/
def choosePort (s : State) (p : Nat) (pk : Packet) : Option Nat :=
  ((candidates s p pk.destChip).filter fun k => creditsOf pk ≤ (getPort s k).credits && (getPort s k).replay.length < 2048).foldl
    (fun (b : Option Nat) k =>
      match b with
      | none => some k
      | some j => if queuedBytes (getPort s k) < queuedBytes (getPort s j) then some k else some j) none

/-- Share of a port in its die's departure store (R303). -/
def departShare (p : Port) : Nat := 16384 * p.lanes / 24

def retainedOn (s : State) (k : Nat) : Nat :=
  ((s.routes.map fun e => (e.2.retained.filter fun t => t.port.toNat == k).length)).sum

/-- A packet leaves on a port: its link sequence and check, the replay buffer and the credits. -/
def putOnWire (k : Nat) (pk : Packet) (s : State) : State :=
  updPort s k fun q =>
    let pk := { pk with lseq := q.lseqTx }
    let pk := { pk with crc := packetCrc pk }
    { q with lseqTx := q.lseqTx + 1, replay := q.replay ++ [pk], credits := q.credits - creditsOf pk, wire := q.wire ++ [.packet pk] }

/-- A waiting packet may leave now, and where: at most 2,048 of its flow are unacknowledged, and the store has room. -/
def departPort (s : State) (p : Nat) (t : TxPacket) : Option Nat :=
  let r := getRoute s p
  let inFlow := (r.retained.filter fun u => u.pk.destChip == t.pk.destChip && u.pk.flow == t.pk.flow).length
  match choosePort s p t.pk with
  | none => none
  | some k =>
    if t.transit || !flowClass t.pk.cls then some k
    else if inFlow < 2048 && retainedOn s k < departShare (getPort s k) then some k else none

/-- The first waiting packet that may leave. -/
def firstDeparture (s : State) (p : Nat) : List TxPacket → Nat → Option (Nat × TxPacket × Nat)
  | [], _ => none
  | t :: r, i =>
    match departPort s p t with
    | some k => some (i, t, k)
    | none => firstDeparture s p r (i + 1)

/-- PACKET_DEPARTURE. -/
def departPacket (p : Nat) (s : State) : State :=
  match firstDeparture s p (getRoute s p).waiting 0 with
  | none => s
  | some (i, t, k) =>
    let s := putOnWire k t.pk s
    updRoute s p fun r =>
      { r with waiting := dropAt i r.waiting
               retained := if t.transit || !flowClass t.pk.cls then r.retained
                 else r.retained ++ [{ t with sent := some s.nowNs, port := BitVec.ofNat 4 k }] }

/-- A packet of another package is passed on (R300). -/
def forwardPacket (p : Nat) (pk : Packet) (s : State) : State :=
  let drop (s : State) : State := updRoute s p fun r => { r with transitDrops := r.transitDrops + 1 }
  if 15 ≤ pk.hops.toNat + 1 || (candidates s p pk.destChip).isEmpty then drop s
  else updRoute s p fun r => { r with waiting := r.waiting ++
    [{ pk := { pk with hops := pk.hops + 1 }, origin := .service (BitVec.ofNat 5 p), transit := true, sent := none, port := 0, tries := 0 }] }

/-! ## The link layer (R295, R296) -/

/-- Since when each chip of a route table has had no usable candidate (R304). -/
def trackRoutes (p : Nat) (s : State) : State :=
  let r := getRoute s p
  let chips := r.table.map (·.1) ++ (r.empty.map (·.1)).filter fun c => !(r.table.any fun e => e.1 == c)
  let since : Sparse (Option Nat) := chips.foldl (fun m c =>
    if (candidates s p (BitVec.ofNat 16 c)).isEmpty then sPut none c (some ((sGet none c r.empty).getD s.nowNs)) m
    else sPut none c none m) r.empty
  if p = 0 then s else putRoute s p { r with empty := since }

/-- Waiting packets route again by themselves; the replay buffer goes (R291). -/
def leaveUp (k : Nat) (state reason : Byte) (s : State) : State :=
  trackRoutes (portOwner s k) (updPort s k fun q =>
    { q with state := state, downReason := reason, replay := [], asked := false, retryRun := 0, credits := 0 })

/-- R296: a port goes down while it carried traffic, with its count and event. -/
def portDown (k : Nat) (reason : Byte) (s : State) : State :=
  let s := leaveUp k 3 reason s
  let s := updPort s k fun q => { q with downs := q.downs + 1 }
  assertEvent (srcPort k 0) (reason.setWidth 64) s

/-- Packets up to and with `lseq` leave the replay buffer. -/
def ackReplay (lseq : BitVec 12) (ps : List Packet) : List Packet :=
  ps.filter fun p => 0 < (p.lseq - lseq).toNat && (p.lseq - lseq).toNat < 2048

/-- LINK_RETRY_REQUEST: go-back-N from the named packet, or down after 16 (R295, R296). -/
def linkRetry (k : Nat) (lseq : BitVec 12) (s : State) : State :=
  let q := getPort s k
  let run := if q.retryRun ≠ 0 && q.retryName == lseq then q.retryRun + 1 else 1
  let s := putPort s k { q with retries := q.retries + 1, retryName := lseq, retryRun := run }
  if 16 ≤ run then portDown k 5 s
  else updPort s k fun q => { q with wire := q.wire ++ (q.replay.filter fun p => (p.lseq - lseq).toNat < 2048).map .packet }

/-! ## Completions and acknowledgements (R301, R303, R304) -/

/-- A request of a thread has its answer. -/
def answerTag (n t : Nat) (status : Byte) (data : Bytes) (poison : Bool) (s : State) : State :=
  updShuttle s n fun h =>
    let g : Tag := sGet {} t h.tags
    if g.valid && g.reply.isNone then
      { h with tags := sPut {} t { g with reply := some status, data := data, poison := poison, resend := none } h.tags }
    else h

/-- R239: a tile message is discarded. -/
def msgError (p g : Nat) (s : State) : State :=
  let s := updPart s p fun q => { q with sync := { q.sync with msgErrors := q.sync.msgErrors + 1 } }
  assertEvent (srcQuad g 2) ((getPart s p).sync.msgErrors.setWidth 64) s

/-- A message has been answered: whoever sent it learns its status. -/
def completeMsg (p : Nat) (t : TxPacket) (status : Byte) (s : State) : State :=
  match t.origin with
  | .thread n g => answerTag n.toNat g.toNat status [] false s
  | .tile x y h =>
    if t.pk.cls = 2 then
      let s := if status = 0 then s else msgError p (quadOf x.toNat y.toNat) s
      { s with net := s.net ++ [.knotReply (.tile x y h) (t.pk.operand.setWidth 3) status true 0 0 0] }
    else if status = 0 then s
    else msgError p (quadOf x.toNat y.toNat) s
  | _ => s

/-- An accepted message of a sender table's flow counts once in `acked` (R244, R301). -/
def countFlowAck (flow : W16) (s : State) : State :=
  let t := flow.toNat / 64
  let e := flow.toNat % 64
  let bump (m : Sparse Sender) : Sparse Sender := sUpd {} e (fun (x : Sender) => { x with acked := x.acked + 1 }) m
  if 0x8000 ≤ flow.toNat then s
  else if t < 256 then updShuttle s t fun h => { h with senders := bump h.senders }
  else updSide s (t - 256) fun sd => { sd with senders := bump sd.senders }

/-- A packet is at or before `fseq` in its flow. -/
def atOrBefore (a fseq : BitVec 12) : Bool := (fseq - a).toNat < 2048

/-- A sign of life from a chip: its packets count their timeouts anew (R304). -/
def freshTries (chip : W16) (ts : List TxPacket) : List TxPacket :=
  ts.map fun t => if t.pk.destChip == chip then { t with tries := 0 } else t

/-- E2E_ACK: packets of the flow up to `fseq` are freed; a message whose last packet is freed is answered, unless a reply of its
own answers it. -/
def e2eAcked (p : Nat) (chip flow : W16) (fseq : BitVec 12) (s : State) : State :=
  let r := getRoute s p
  let mine (t : TxPacket) : Bool := t.pk.destChip == chip && t.pk.flow == flow && atOrBefore t.pk.fseq fseq
  let done := r.retained.filter mine
  let left := r.retained.filter fun t => !mine t
  let clear := !(left.any fun t => t.pk.destChip == chip && t.pk.flow == flow)
  let s := putRoute s p { r with retained := freshTries chip left
                                 flows := if clear then sUpd {} (chipFlow chip flow) (fun f => { f with clear := s.nowNs }) r.flows else r.flows }
  done.foldl (fun s t =>
    if !t.pk.last then s
    else if t.pk.cls = 0 || t.pk.cls = 1 then completeMsg p t 0 (countFlowAck flow s)
    else s) s

/-- A NAK of reason 0 or 1 leads to a retransmission from the named packet on after 1 µs; of reason 2 restarts the flow at the
message; of reason 3 ends the message (R303). -/
def e2eNak (p : Nat) (chip flow : W16) (fseq : BitVec 12) (reason : BitVec 2) (status : Byte) (s : State) : State :=
  let s := updRoute s p fun r => { r with retained := freshTries chip r.retained }
  let r := getRoute s p
  let mine (t : TxPacket) : Bool := t.pk.destChip == chip && t.pk.flow == flow
  match r.retained.find? fun t => mine t && t.pk.fseq == fseq with
  | none => s
  | some t =>
    if reason = 3 then
      let back (u : TxPacket) : Bool := mine u && u.origin == t.origin && u.pk.target == t.pk.target && u.pk.tag == t.pk.tag
      let ends := ((r.retained.filter fun u => back u && u.pk.last && atOrBefore fseq u.pk.fseq).map (·.pk.fseq)).head?.getD fseq
      let s := updRoute s p fun r => { r with retained := r.retained.filter fun u => !(mine u && atOrBefore u.pk.fseq ends) }
      completeMsg p t status s
    else if reason = 2 then
      let first := ((r.retained.filter fun u => mine u && u.pk.first && atOrBefore u.pk.fseq fseq).map (·.pk.fseq)).getLast?.getD t.pk.fseq
      let mark (u : TxPacket) : TxPacket := if mine u && u.pk.fseq == first then { u with pk := { u.pk with flowStart := true } } else u
      updRoute s p fun r => { r with retained := r.retained.map mark, resend := sPut none (chipFlow chip flow) (some (s.nowNs, first)) r.resend }
    else updRoute s p fun r => { r with resend := sPut none (chipFlow chip flow) (some (s.nowNs + 1000, fseq)) r.resend }

/-- Packets of a flow from `fseq` on go out again through candidates; those that find none wait. -/
def resendFlow (p : Nat) (chip flow : W16) (fseq : BitVec 12) (s : State) : State :=
  let r := getRoute s p
  let again (t : TxPacket) : Bool := t.pk.destChip == chip && t.pk.flow == flow && atOrBefore fseq t.pk.fseq
  let ts := r.retained.filter again
  putRoute s p { r with
    retained := r.retained.filter fun t => !again t
    waiting := ts ++ r.waiting
    resend := sPut none (chipFlow chip flow) none r.resend
    retransmits := r.retransmits + BitVec.ofNat 64 ts.length }

/-- R304: every packet for the chip completes with `unreachable`, the bit is set and the event asserted, once. -/
def chipUnreachable (p : Nat) (chip : W16) (s : State) : State :=
  let r := getRoute s p
  if sGet false chip.toNat r.unreach then s
  else
    let mine (t : TxPacket) : Bool := t.pk.destChip == chip && !t.transit
    let lost := (r.retained ++ r.waiting).filter mine
    let s := putRoute s p { r with
      retained := r.retained.filter fun t => !mine t
      waiting := r.waiting.filter fun t => !mine t
      unreach := sPut false chip.toNat true r.unreach }
    let s := (lost.filter fun t => t.pk.last).foldl (fun s t => completeMsg p t 0x16 s) s
    assertEvent (srcPart p 6) (chip.setWidth 64) s

/-- The chip can be reached again (R304). -/
def chipReachable (p : Nat) (chip : W16) (s : State) : State :=
  updRoute s p fun r => { r with unreach := sPut false chip.toNat false r.unreach, empty := sPut none chip.toNat none r.empty
                                 retained := freshTries chip r.retained }

/-- A port enters `up` (R291, R304, R311): every chip whose route names it can be reached again, and a pulse master that takes its time
from it acquires. -/
def portUp (k : Nat) (s : State) : State :=
  let p := portOwner s k
  let s := updPort s k fun q => { q with state := 2, downReason := 0, lseqTx := 0, lseqRx := 0, asked := false, retryRun := 0 }
  let s := assertEvent (srcPort k 1) (n64 (getPort s k).lanes) s
  let acquires := s.links.role = 1 && s.links.syncPort.toNat = k && s.links.syncState = 2
  let s := if acquires then { s with links := { s.links with syncState := 1, pulsed := false } } else s
  if p = 0 then s
  else trackRoutes p ((getRoute s p).unreach.foldl (fun s e =>
    if bitAt k (sGet 0 e.1 (getRoute s p).table).toNat then chipReachable p (BitVec.ofNat 16 e.1) s else s) s)

/-- A control packet of class 8 or 9 for another package (Table 11-3). -/
def controlPacket (p : Nat) (chip flow : W16) (fseq : BitVec 12) (cls : BitVec 4) (operand : W32) (s : State) : State :=
  let pk : Packet := {
    destChip := chip, srcChip := s.links.chip, cls := cls, fseq := fseq, lseq := 0, hops := 0, target := 0, length := 0
    first := true, last := true, poison := false, flowStart := false, flow := flow, msgLen := 0, srcThread := 0, tag := 0
    operand := operand, crc := 0, payload := [] }
  updRoute s p fun r => { r with waiting := r.waiting ++
    [{ pk := pk, origin := .service (BitVec.ofNat 5 p), transit := true, sent := none, port := 0, tries := 0 }] }

/-! ## The port window (Tables 11-8 and 11-9) -/

def spoolStatus (x : SpoolSlot) : W64 :=
  n64 (x.state.toNat + x.tries.toNat * 2 ^ 4 + x.error.toNat * 2 ^ 8 + x.received.toNat * 2 ^ 32)

/-- The lanes that a port holds by the map in force, in rising order: two of each pair. -/
def lanesOf (s : State) (k : Nat) : List Nat :=
  ((List.range 48).filter fun i => sGet (BitVec.ofNat 8 (i / 4 + 1)) i s.links.laneActive == BitVec.ofNat 8 (k + 1)).flatMap
    fun i => [2 * i, 2 * i + 1]

/-- Lane record i of a port: zero beyond its lanes; locked while the port is trained (log 3). -/
def laneRecord (s : State) (k i : Nat) : W64 :=
  let q := getPort s k
  match (lanesOf s k)[i]? with
  | some l => n64 (l + b2n (q.state == 2 || q.state == 5) * 2 ^ 7 + (sGet 0 i q.laneErrs).toNat * 2 ^ 16)
  | none => 0

/-- What the port's logic counts of the lanes while a packet arrives: corrected codewords, and symbol errors by lane record. -/
def countLine (e : LineErrors) (q : Port) : Port :=
  { q with fecCorrected := q.fecCorrected + n64 e.corrected
           laneErrs := e.symbols.foldl (fun m x => sUpd 0 x.1.val (fun n => n + BitVec.ofNat 32 x.2) m) q.laneErrs }

def portWindowWord (s : State) (k o : Nat) : W64 :=
  let q := getPort s k
  if o = 0 then
    n64 (q.state.toNat + q.mode.toNat % 2 * 2 ^ 3 + q.lanes * 2 ^ 4 + q.peerChip.toNat * 2 ^ 16 + q.peerPort.toNat % 16 * 2 ^ 32
      + q.downReason.toNat * 2 ^ 40)
  else if o = 8 then n64 (q.retries.toNat % 2 ^ 32 + q.crcErrors.toNat * 2 ^ 32 + min q.downs.toNat 65535 * 2 ^ 48)
  else if o = 16 then n64 (q.rtt.toNat + hopBound q * 2 ^ 16 + payloadRate q * 2 ^ 48)
  else if 0x100 ≤ o && o < 0x1C0 then laneRecord s k ((o - 0x100) / 8)
  else if 0x2000 ≤ o && o < 0x2800 then
    let x : SpoolSlot := sGet {} ((o - 0x2000) / 32) q.spool
    match o / 8 % 4 with
    | 0 => x.w0
    | 1 => x.w1
    | 2 => x.w2
    | _ => x.w3
  else if 0x3000 ≤ o && o < 0x3200 then spoolStatus (sGet {} ((o - 0x3000) / 8) q.spool)
  else 0

end Sys2Proof.Machine
end

