-- ==== Sys2Proof/Machine/Crypto.lean ====
section
/-! DEFINITION. SHA-384 and the verification of ECDSA P-384 signatures, from the public standards that the manual names
(log 16). -/

namespace Sys2Proof.Machine

/-! ## SHA-384 -/

def shaK0 : List W64 :=
  [0x428A2F98D728AE22, 0x7137449123EF65CD, 0xB5C0FBCFEC4D3B2F, 0xE9B5DBA58189DBBC,
   0x3956C25BF348B538, 0x59F111F1B605D019, 0x923F82A4AF194F9B, 0xAB1C5ED5DA6D8118,
   0xD807AA98A3030242, 0x12835B0145706FBE, 0x243185BE4EE4B28C, 0x550C7DC3D5FFB4E2,
   0x72BE5D74F27B896F, 0x80DEB1FE3B1696B1, 0x9BDC06A725C71235, 0xC19BF174CF692694,
   0xE49B69C19EF14AD2, 0xEFBE4786384F25E3, 0x0FC19DC68B8CD5B5, 0x240CA1CC77AC9C65]

def shaK1 : List W64 :=
  [0x2DE92C6F592B0275, 0x4A7484AA6EA6E483, 0x5CB0A9DCBD41FBD4, 0x76F988DA831153B5,
   0x983E5152EE66DFAB, 0xA831C66D2DB43210, 0xB00327C898FB213F, 0xBF597FC7BEEF0EE4,
   0xC6E00BF33DA88FC2, 0xD5A79147930AA725, 0x06CA6351E003826F, 0x142929670A0E6E70,
   0x27B70A8546D22FFC, 0x2E1B21385C26C926, 0x4D2C6DFC5AC42AED, 0x53380D139D95B3DF,
   0x650A73548BAF63DE, 0x766A0ABB3C77B2A8, 0x81C2C92E47EDAEE6, 0x92722C851482353B]

def shaK2 : List W64 :=
  [0xA2BFE8A14CF10364, 0xA81A664BBC423001, 0xC24B8B70D0F89791, 0xC76C51A30654BE30,
   0xD192E819D6EF5218, 0xD69906245565A910, 0xF40E35855771202A, 0x106AA07032BBD1B8,
   0x19A4C116B8D2D0C8, 0x1E376C085141AB53, 0x2748774CDF8EEB99, 0x34B0BCB5E19B48A8,
   0x391C0CB3C5C95A63, 0x4ED8AA4AE3418ACB, 0x5B9CCA4F7763E373, 0x682E6FF3D6B2B8A3,
   0x748F82EE5DEFB2FC, 0x78A5636F43172F60, 0x84C87814A1F0AB72, 0x8CC702081A6439EC]

def shaK3 : List W64 :=
  [0x90BEFFFA23631E28, 0xA4506CEBDE82BDE9, 0xBEF9A3F7B2C67915, 0xC67178F2E372532B,
   0xCA273ECEEA26619C, 0xD186B8C721C0C207, 0xEADA7DD6CDE0EB1E, 0xF57D4F7FEE6ED178,
   0x06F067AA72176FBA, 0x0A637DC5A2C898A6, 0x113F9804BEF90DAE, 0x1B710B35131C471B,
   0x28DB77F523047D84, 0x32CAAB7B40C72493, 0x3C9EBE0A15C9BEBC, 0x431D67C49C100D4C,
   0x4CC5D4BECB3E42B6, 0x597F299CFC657E2A, 0x5FCB6FAB3AD6FAEC, 0x6C44198C4A475817]

def shaK : List W64 := shaK0 ++ shaK1 ++ shaK2 ++ shaK3

def shaInit : List W64 :=
  [0xCBBB9D5DC1059ED8, 0x629A292A367CD507, 0x9159015A3070DD17, 0x152FECD8F70E5939,
   0x67332667FFC00B31, 0x8EB44A8768581511, 0xDB0C2E0D64F98FA7, 0x47B5481DBEFA4FA4]

def shaPad (m : Bytes) : Bytes :=
  m ++ [0x80] ++ List.replicate ((112 + 128 - (m.length + 1) % 128) % 128) 0 ++ beBytes 16 (8 * m.length)

/-- Word t of the message schedule from the 16 before it, the latest first. -/
def shaNext (w : List W64) : W64 :=
  let g (i : Nat) : W64 := w.getD (i - 1) 0
  let s0 : W64 := (g 15).rotateRight 1 ^^^ (g 15).rotateRight 8 ^^^ (g 15) >>> 7
  let s1 : W64 := (g 2).rotateRight 19 ^^^ (g 2).rotateRight 61 ^^^ (g 2) >>> 6
  g 16 + s0 + g 7 + s1

def shaExtend : Nat → List W64 → List W64
  | 0, w => w
  | n + 1, w => shaExtend n (shaNext w :: w)

structure ShaVars where
  a : W64
  b : W64
  c : W64
  d : W64
  e : W64
  f : W64
  g : W64
  h : W64
  deriving DecidableEq, Repr

def shaRound (v : ShaVars) (k w : W64) : ShaVars :=
  let s1 : W64 := v.e.rotateRight 14 ^^^ v.e.rotateRight 18 ^^^ v.e.rotateRight 41
  let ch : W64 := (v.e &&& v.f) ^^^ (~~~v.e &&& v.g)
  let t1 := v.h + s1 + ch + k + w
  let s0 : W64 := v.a.rotateRight 28 ^^^ v.a.rotateRight 34 ^^^ v.a.rotateRight 39
  let mj : W64 := (v.a &&& v.b) ^^^ (v.a &&& v.c) ^^^ (v.b &&& v.c)
  ⟨t1 + s0 + mj, v.a, v.b, v.c, v.d + t1, v.e, v.f, v.g⟩

def shaBlock (h : List W64) (block : Bytes) : List W64 :=
  let w := (List.range 16).map fun i => BitVec.ofNat 64 (ofBe ((block.drop (8 * i)).take 8))
  let ws := (shaExtend 64 w.reverse).reverse
  let g (i : Nat) : W64 := h.getD i 0
  let v := (shaK.zip ws).foldl (fun v e => shaRound v e.1 e.2) ⟨g 0, g 1, g 2, g 3, g 4, g 5, g 6, g 7⟩
  [g 0 + v.a, g 1 + v.b, g 2 + v.c, g 3 + v.d, g 4 + v.e, g 5 + v.f, g 6 + v.g, g 7 + v.h]

def sha384 (m : Bytes) : Bytes :=
  let p := shaPad m
  let h := (List.range (p.length / 128)).foldl (fun h i => shaBlock h ((p.drop (128 * i)).take 128)) shaInit
  (h.flatMap fun w => beBytes 8 w.toNat).take 48

/-! ## ECDSA P-384 -/

def ecP : Nat := 2 ^ 384 - 2 ^ 128 - 2 ^ 96 + 2 ^ 32 - 1
def ecB : Nat := 0xb3312fa7e23ee7e4988e056be3f82d19181d9c6efe8141120314088f5013875ac656398d8a2ed19d2a85c8edd3ec2aef
def ecN : Nat := 0xffffffffffffffffffffffffffffffffffffffffffffffffc7634d81f4372ddf581a0db248b0a77aecec196accc52973
def ecG : Nat × Nat :=
  (0xaa87ca22be8b05378eb1c71ef320ad746e1d3b628ba79b9859f741e082542a385502f25dbf55296c3a545e3872760ab7,
   0x3617de4a96262c6f5d9e98bf9292dc29f8f41dbd289a147ce9da3113b5f0b8c00a60b1ce1d7e819d7a431d7c90ea0e5f)

/-- b ^ e modulo m, over the `fuel` low bits of e. -/
def powMod (m : Nat) : Nat → Nat → Nat → Nat
  | 0, _, _ => 1 % m
  | fuel + 1, b, e => (if e % 2 = 1 then b else 1) * powMod m fuel (b * b % m) (e / 2) % m

/-- The inverse modulo a prime of 384 bits. -/
def invMod (m a : Nat) : Nat := powMod m 384 (a % m) (m - 2)

def subMod (m a b : Nat) : Nat := (a + (m - b % m)) % m

/-- A point of the curve, (x/z², y/z³) modulo p; z = 0 is the point at infinity. -/
structure EcPoint where
  x : Nat
  y : Nat
  z : Nat
  deriving DecidableEq, Repr

def ecDouble (a : EcPoint) : EcPoint :=
  let d := a.z * a.z % ecP
  let g := a.y * a.y % ecP
  let b := a.x * g % ecP
  let l := 3 * (subMod ecP a.x d * (a.x + d)) % ecP
  let x := subMod ecP (l * l) (8 * b)
  ⟨x, subMod ecP (l * subMod ecP (4 * b) x) (8 * (g * g)), 2 * (a.y * a.z) % ecP⟩

def ecAdd (a b : EcPoint) : EcPoint :=
  if a.z = 0 then b
  else if b.z = 0 then a
  else
    let za := a.z * a.z % ecP
    let zb := b.z * b.z % ecP
    let u := a.x * zb % ecP
    let v := a.y * b.z * zb % ecP
    let h := subMod ecP (b.x * za) u
    let r := subMod ecP (b.y * a.z * za) v
    if h = 0 then (if r = 0 then ecDouble a else ⟨1, 1, 0⟩)
    else
      let hh := h * h % ecP
      let uh := u * hh % ecP
      let x := subMod ecP (r * r) (h * hh + 2 * uh)
      ⟨x, subMod ecP (r * subMod ecP uh x) (v * (h * hh % ecP)), a.z * b.z * h % ecP⟩

def ecMul : Nat → Nat → EcPoint → EcPoint
  | 0, _, _ => ⟨1, 1, 0⟩
  | fuel + 1, k, a =>
    let r := ecMul fuel (k / 2) (ecDouble a)
    if k % 2 = 1 then ecAdd a r else r

/-- k·a + l·b as the coordinates of a point; none is the point at infinity. -/
def ecSum (k : Nat) (a : Nat × Nat) (l : Nat) (b : Nat × Nat) : Option (Nat × Nat) :=
  let c := ecAdd (ecMul 384 k ⟨a.1, a.2, 1⟩) (ecMul 384 l ⟨b.1, b.2, 1⟩)
  if c.z = 0 then none
  else
    let i := invMod ecP c.z
    some (c.x * (i * i) % ecP, c.y * (i * i * i) % ecP)

/-- A public key of 97 bytes as a point of the curve (Table 14-1). -/
def ecPoint (key : Bytes) : Option (Nat × Nat) :=
  let x := ofBe ((key.drop 1).take 48)
  let y := ofBe ((key.drop 49).take 48)
  if key.length = 97 && key.headD 0 = 4 && x < ecP && y < ecP && y * y % ecP = (x * x * x + 3 * (ecP - x) + ecB) % ecP then some (x, y)
  else none

/-- The signature r then s, each 48 bytes big-endian, over a digest of 48 bytes verifies under the key. -/
def ecdsaOk (key digest sig : Bytes) : Bool :=
  let r := ofBe (sig.take 48)
  let t := ofBe ((sig.drop 48).take 48)
  match ecPoint key with
  | none => false
  | some q =>
    if sig.length ≠ 96 || r = 0 || t = 0 || ecN ≤ r || ecN ≤ t then false
    else
      let w := invMod ecN t
      match ecSum (ofBe digest * w % ecN) ecG (r * w % ecN) q with
      | none => false
      | some (x, _) => x % ecN == r

/-- A signature over the SHA-384 of a message. -/
def sigOk (key message sig : Bytes) : Bool := ecdsaOk key (sha384 message) sig

end Sys2Proof.Machine
end

