-- ==== Sys2Proof/Machine/Audit.lean ====
section
/-! DEFINITION. What the Caerec module does for others: signatures, random bits, the audit log (14 R382 to R390, R397). -/

namespace Sys2Proof.Machine

/-! ## Abort codes (Tables 14-2, 14-4, 15-6 and others) -/

def codeNotStarted : Nat := 0xD1020001
def codePowerBudget : Nat := 0xD1020002
def codeNotSkippable : Nat := 0xD1020003
def codeRoleRefused : Nat := 0xD1030001
def codeConfigBusy : Nat := 0xD1030002
def codeApproved : Nat := 0xD1030009
def codeBadSignature : Nat := 0xD103000A
def codeStaleNonce : Nat := 0xD103000B
def codeAuditFull : Nat := 0xD103000C
def codeGrantExpired : Nat := 0xD103000D
def codeFirmware : Nat := 0xD103000E
def codeRollback : Nat := 0xD103000F
def codeModuleError : Nat := 0xD1030010
def codeNoSaveRoom : Nat := 0xD1030011
def codeNoObject : Nat := 0xD1010001
def codeNoSubindex : Nat := 0xD1010002
def codeReadOnly : Nat := 0xD1010003
def codeTypeLength : Nat := 0xD1010004
def codeValueRange : Nat := 0xD1010005
def codeUnitAbsent : Nat := 0xD1010006
def codeTileBusy : Nat := 0xD1010007
def codeRangeInvalid : Nat := 0xD1010008
def codeUnmapped : Nat := 0xD1010009
def codeMisaligned : Nat := 0xD101000A
def codeBadFrame : Nat := 0xD101000B
def codeTransferState : Nat := 0xD101000C
def codeSegmentDigest : Nat := 0xD101000D
def codeBusy : Nat := 0xD101000E
def codeFlashFailed : Nat := 0xD101000F
def codeReserved : Nat := 0xD1010010
def codePartitionBusy : Nat := 0xD1080001

/-! ## The module -/

/-- The bytes of a key or digest entry; an unset one reads as zeros. -/
def fixedBytes (n : Nat) (b : Bytes) : Bytes := bytesAt b 0 n

def allZero (b : Bytes) : Bool := b.all (· == 0)

/-- A signature of the module over a message: 96 bytes that nothing constrains (log 16). -/
def moduleSign (message : Bytes) (s : State) : Bytes × State :=
  let (n, s) := takeFree s
  (bytesAt (Config.signature n message) 0 96, s)

/-- A new key pair: its public half. -/
def moduleKey (s : State) : Bytes × State :=
  let (n, s) := takeFree s
  (0x04 :: bytesAt (Config.publicKey n) 0 96, s)

/-- R397: the module answers nothing until the next start. -/
def moduleDown (s : State) : Bool := s.sec.caerec.state == 2

def setSec (s : State) (f : Sec → Sec) : State := { s with sec := f s.sec }
def setAudit (s : State) (f : Audit → Audit) : State := setSec s fun c => { c with audit := f c.audit }
def setRoles (s : State) (f : Roles → Roles) : State := setSec s fun c => { c with roles := f c.roles }
def setCaerec (s : State) (f : Caerec → Caerec) : State := setSec s fun c => { c with caerec := f c.caerec }

/-! ## The audit log (R388 to R390) -/

def roleCode : Role → Nat
  | .none => 0
  | .maker => 1
  | .installer => 2
  | .operator _ => 3

def rolePart : Role → Nat
  | .operator p => p.val
  | _ => 0

/-- Records that the ring holds (R389). -/
def auditRing : Nat := 5088

def auditFree (a : Audit) : Nat := auditRing - a.kept.length

/-- Number of the newest record that stands in an erased sector. -/
def recordNumber (r : Bytes) : Nat := ofLe (r.take 8)

/-- The oldest sector erased: its 32 records go, and the base moves to the last of them (R389). -/
def eraseSector (s : State) : State :=
  let a := s.sec.audit
  match (a.kept.take 32).getLast? with
  | none => s
  | some last =>
    let chain := bytesAt last 80 48
    let (sig, s) := moduleSign (last.take 8 ++ chain) s
    setAudit s fun a => { a with kept := a.kept.drop 32, baseNumber := n64 (recordNumber last), baseChain := chain, baseSig := sig }

/-- The oldest sector is full and all its records have been exported. -/
def oldestExported (a : Audit) : Bool :=
  32 ≤ a.kept.length && ((a.kept.take 32).all fun r => recordNumber r ≤ a.exportedTo.toNat)

/-- Every sector that may be erased is (R389). -/
def compactAudit : Nat → State → State
  | 0, s => s
  | n + 1, s => if oldestExported s.sec.audit then compactAudit n (eraseSector s) else s

def nearFull (s : State) : State :=
  let free := auditFree s.sec.audit
  setCondition 0x304 (decide (free < 512)) (n64 free) s

/-- Room for one record: exported sectors go first, and outside approved mode the oldest sector. -/
def makeRoom (s : State) : State :=
  if auditFree s.sec.audit ≠ 0 then s
  else if oldestExported s.sec.audit then eraseSector s
  else if s.sec.caerec.approved then s
  else setAudit (eraseSector s) fun a => { a with overwritten := a.overwritten + 32 }

/-- R389: in approved mode an action that cannot be recorded is refused. -/
def auditBlocked (s : State) : Bool :=
  s.sec.caerec.approved && auditFree s.sec.audit == 0 && !oldestExported s.sec.audit

/-- What a record says (Table 14-8). `value`: the bytes written or loaded. -/
structure AuditEntry where
  role      : Nat
  part      : Nat
  transport : Nat := 0
  index     : Nat := 0
  sub       : Nat := 0
  kind      : Nat
  result    : Nat := 0
  value     : Bytes := []
  deriving DecidableEq, Repr

def auditHead (number rack : Nat) (e : AuditEntry) : Bytes :=
  leBytes 8 number ++ leBytes 8 rack ++ leBytes 1 e.role ++ leBytes 1 e.part ++ leBytes 1 e.transport ++ [0]
    ++ leBytes 2 e.index ++ leBytes 1 e.sub ++ leBytes 1 e.kind ++ leBytes 4 e.result ++ leBytes 4 0
    ++ (sha384 e.value).take 16 ++ List.replicate 32 0

/-- The module signs the head (R389). -/
def anchorAudit (s : State) : State :=
  let a := s.sec.audit
  let body := leBytes 8 a.headNumber.toNat ++ fixedBytes 48 a.headChain
  let (sig, s) := moduleSign body s
  setAudit s fun a => { a with anchor := body ++ sig }

/-- One record is appended (R388); nothing where it cannot be. -/
def auditAppend (e : AuditEntry) (s : State) : State :=
  let s := makeRoom s
  let a := s.sec.audit
  if auditFree a = 0 then s
  else
    let number := a.headNumber.toNat + 1
    let head := auditHead number s.rackNs.toNat e
    let chain := sha384 (fixedBytes 48 a.headChain ++ head)
    let s := setAudit s fun a => { a with headNumber := n64 number, headChain := chain, kept := a.kept ++ [head ++ chain] }
    nearFull (if number % 256 = 0 then anchorAudit s else s)

/-- A record of the module's or the step service's own doing. -/
def auditEvent (role part kind index sub result : Nat) (value : Bytes) (s : State) : State :=
  auditAppend { role := role, part := part, index := index, sub := sub, kind := kind, result := result, value := value } s

/-- R390: what an operator is shown of a record. -/
def redact (p : Nat) (r : Bytes) : Bytes :=
  let q := ofLe (bytesAt r 17 1)
  if q = p || q = 0 then r else r.take 16 ++ 0xFF :: List.replicate 63 0 ++ r.drop 80

end Sys2Proof.Machine
end

