-- ==== Sys2Proof/Machine/Recording.lean ====
section
/-! DEFINITION. Recordings: their entries, what is appended when, and how a replay reads them (16 R443 to R450). -/

namespace Sys2Proof.Machine

def updStep (s : State) (p : Nat) (f : StepSt → StepSt) : State := updPart s p fun q => { q with step := f q.step }
def updPattern (s : State) (p : Nat) (f : Pattern → Pattern) : State := updPart s p fun q => { q with pattern := f q.pattern }
def updClock (s : State) (p : Nat) (f : Clock → Clock) : State := updPart s p fun q => { q with clock := f q.clock }
def updDebug (s : State) (p : Nat) (f : Debug → Debug) : State := updPart s p fun q => { q with debugging := f q.debugging }
def updRecd (s : State) (p : Nat) (f : Recorder → Recorder) : State := updPart s p fun q => { q with recd := f q.recd }
def updSeals (s : State) (p : Nat) (f : Seals → Seals) : State := updPart s p fun q => { q with seals := f q.seals }

def stepState (s : State) (p : Nat) : Nat := (getPart s p).step.state.toNat

/-- Event sources of the debug chapter (R455). -/
def srcDebug (p k : Nat) : Nat := 0x340 + 4 * (p - 1) + k

/-- The lowest quadrant of a partition, 0 when it has none. -/
def lowestQuad (s : State) (p : Nat) : Nat := (quadsOfPart s p).headD 0
def highestQuad (s : State) (p : Nat) : Nat := (quadsOfPart s p).getLastD 0

/-- S-beats that the step has executed (R449). -/
def stepOffset (s : State) (p : Nat) : Nat := (getPart s p).hold.sBeat - (getPart s p).step.startSBeat

/-! ## Entries (Table 16-7) -/

structure RecEntry where
  kind    : Nat
  loc     : Bool
  flow    : Nat
  target  : Nat
  offset  : Nat
  step    : Nat
  srcChip : Nat
  payload : Bytes
  deriving DecidableEq, Repr

def padTo (n : Nat) (b : Bytes) : Bytes := b ++ List.replicate ((n - b.length % n) % n) 0

def entryBytes (e : RecEntry) : Bytes :=
  padTo 32 (leBytes 8 (e.kind + b2n e.loc * 2 ^ 4 + e.flow * 2 ^ 16 + e.payload.length * 2 ^ 32) ++ leBytes 8 e.target
    ++ leBytes 8 e.offset ++ leBytes 8 (e.step % 2 ^ 48 + e.srcChip * 2 ^ 48) ++ e.payload)

/-- The entries of a recording's bytes. -/
def parseEntries : Nat → Bytes → List RecEntry
  | 0, _ => []
  | fuel + 1, b =>
    if b.length < 32 then []
    else
      let w (i : Nat) : Nat := ofLe (bytesAt b (8 * i) 8)
      let n := bits 48 32 (w 0)
      let size := (32 + n + 31) / 32 * 32
      { kind := bits 3 0 (w 0), loc := bitAt 4 (w 0), flow := bits 31 16 (w 0), target := w 1, offset := w 2
        step := bits 47 0 (w 3), srcChip := bits 63 48 (w 3), payload := bytesAt b 32 n } :: parseEntries fuel (b.drop size)

/-- Bytes of the recording area (R443): it lies in the range of the partition's lowest quadrant. -/
def recordBytes (s : State) (p off n : Nat) : Bytes :=
  hbmBytes (getHbm s (lowestQuad s p)) ((getPart s p).recd.areaOffset.toNat + off) n

def putRecordBytes (p off : Nat) (b : Bytes) (s : State) : State :=
  let r := (getPart s p).recd
  writeHbm (lowestQuad s p) (r.areaOffset.toNat + off) b false s

/-- The entries of the recording in the area. -/
def recordedEntries (s : State) (p : Nat) : List RecEntry :=
  let r := (getPart s p).recd
  parseEntries (r.used / 32) (recordBytes s p 256 (r.used - 256))

/-- Recording ends at the last step mark (R446). -/
def endRecording (p : Nat) (s : State) : State :=
  let s := updRecd s p fun r => { r with state := 3, used := r.stepFrom, ending := false }
  assertEvent (srcDebug p 3) (getPart s p).recd.mark s

/-- One entry is appended, or the area is full and recording ends (R444, R446). -/
def recordEntry (p : Nat) (e : RecEntry) (s : State) : State :=
  let r := (getPart s p).recd
  if p = 0 || r.state ≠ 1 then s
  else
    let b := entryBytes e
    if r.areaBytes.toNat < r.used + b.length then endRecording p s
    else
      let s := putRecordBytes p r.used b s
      updRecd s p fun r => { r with used := r.used + b.length, entries := r.entries + 1 }

/-- An entry that takes effect now in partition p. -/
def recordNow (p kind : Nat) (loc : Bool) (flow target srcChip : Nat) (payload : Bytes) (s : State) : State :=
  if p = 0 || (getPart s p).recd.state ≠ 1 then s
  else recordEntry p { kind := kind, loc := loc, flow := flow, target := target, offset := stepOffset s p
                       step := (getPart s p).step.counter.toNat, srcChip := srcChip, payload := payload } s

/-- A stamped input (R449): a write that reaches partition state from outside. -/
def stampInput (p target : Nat) (data : Bytes) (s : State) : State := recordNow p 4 false 0 target 0xFFFF data s

/-- Origin word of a local sender (R444). -/
def originOf (s : State) : MsgFrom → Nat
  | .tile x y _ => x.toNat + y.toNat * 2 ^ 16
  | .thread n g => (16 * n.toNat + (sGet {} g.toNat (getShuttle s n.toNat).tags : Tag).thread.toNat) * 2 ^ 32 + 2 ^ 63
  | .remote _ _ _ _ => 0
  | .service _ => 0

/-! ## Replay (R447 to R450) -/

def replaying (s : State) (p : Nat) : Bool := p ≠ 0 && (getPart s p).recd.state == 2

/-- Entries not consumed yet, with their index. -/
def unconsumed (s : State) (p : Nat) : List (Nat × RecEntry) :=
  let es := recordedEntries s p
  ((List.range es.length).zip es).filter fun e => !(getPart s p).recd.consumed.contains e.1

def consume (p i : Nat) (s : State) : State := updRecd s p fun r => { r with consumed := i :: r.consumed }

/-- The next entry for a home of a kind (R448). -/
def nextFor (s : State) (p kind target : Nat) : Option (Nat × RecEntry) :=
  (unconsumed s p).find? fun e => e.2.kind == kind && e.2.target == target

/-- The turn of a local sender at a home: always outside a replay; in one, when the next entry is its own. -/
def senderTurn (s : State) (p kind target : Nat) (src : MsgFrom) : Bool :=
  if !replaying s p then true
  else match nextFor s p kind target with
    | some (_, e) => e.loc && ofLe e.payload == originOf s src
    | none => false

/-- A local sender whose turn has not come waits (R448). -/
def noteWaiting (p target : Nat) (src : MsgFrom) (s : State) : State :=
  let e : W64 × W64 := (n64 target, n64 (originOf s src))
  updRecd s p fun r =>
    if r.waiting.any fun w => w.1 == e.1 && w.2.1 == e.2 then r else { r with waiting := r.waiting ++ [(e.1, e.2, s.nowNs)] }

/-- A home has accepted from a sender: recorded, or consumed in a replay. -/
def noteAccepted (p kind target flow srcChip : Nat) (src : MsgFrom) (payload : Bytes) (s : State) : State :=
  if replaying s p then
    let e : W64 × W64 := (n64 target, n64 (originOf s src))
    let s := updRecd s p fun r => { r with waiting := r.waiting.filter fun w => !(w.1 == e.1 && w.2.1 == e.2) }
    match nextFor s p kind target with
    | some (i, _) => consume p i s
    | none => s
  else
    match src with
    | .remote .. => recordNow p kind false flow target srcChip payload s
    | _ => recordNow p kind true flow target srcChip (leBytes 8 (originOf s src)) s

/-- The stamped inputs of the step in progress whose turn has not come. -/
def stampsLeft (s : State) (p : Nat) : List (Nat × RecEntry) :=
  (unconsumed s p).filter fun e => e.2.kind == 4 && e.2.step == (getPart s p).step.counter.toNat

/-- A replay freezes at the first of them (R449). -/
def armStamp (p : Nat) (s : State) : State :=
  let at_ := if replaying s p then (stampsLeft s p).head?.map fun e => (getPart s p).step.startSBeat + e.2.offset else none
  updHold s p fun h => { h with stampAt := at_ }

def noStamp (p : Nat) (s : State) : State := updHold s p fun h => { h with stampAt := none }

/-- A replay diverges (R450): state 5, its step and mask, the event, and a debug hold. -/
def diverge (p : Nat) (mask : W64) (s : State) : State :=
  let counter := (getPart s p).step.counter
  let s := updRecd s p fun r => { r with state := 5, divergedStep := counter.setWidth 64, divergedMask := mask }
  let s := assertEvent (srcDebug p 2) (counter.setWidth 64) s
  let s := updHold (noStamp p s) p fun h => if h.debug then h else { h with debug := true, debugAt := h.wBeat }
  updDebug s p fun d => { d with state := 2, since := s.nowNs }

end Sys2Proof.Machine
end

