-- ==== Sys2Proof/Machine/Homes.lean ====
section
/-! DEFINITION. Homes: what an operation, a message or a contribution does where it arrives, with the entry that a recording keeps of
it (08 R229 to R249, 16 R444). -/

namespace Sys2Proof.Machine

def homeAt (s : State) (o : Nat) : Home := homeOf (classify s.fuses.variant o)

/-- Flow of a package thread's reads, writes, knot operations and replies (R301). -/
def threadFlow (thread : Nat) : Nat := 0x8000 + thread

/-- Operation word (R237); n above 255 fills [31:24] (log 29). -/
def wideKnotWord (op n : Nat) (first : Bool) : Nat := op + n % 256 * 2 ^ 8 + b2n first * 2 ^ 16 + n / 256 * 2 ^ 24

/-- What a recording keeps of an operation from another package: its word, and who asks, as an origin word (log 30). -/
def knotPayload (op n : Nat) (first : Bool) (u : KnotUser) : Bytes :=
  leBytes 8 (wideKnotWord op n first)
    ++ leBytes 8 (if u.tile then u.x.toNat + u.y.toNat * 2 ^ 16 else u.thread.toNat * 2 ^ 32 + 2 ^ 63)

/-! ## Threads that wait at knots of their own shuttle (R234) -/

/-- Package offset of a shuttle's knot. -/
def knotOffset (n k : Nat) : Nat := ctlWindow n + 16 * k

/-- An operation of a thread at its own shuttle is recorded (R444). -/
def recordOwn (n k : Nat) (u : BitVec 12) (s : State) : State :=
  recordNow (ownerOfShuttle s n) 3 true (threadFlow u.toNat) (knotOffset n k) 0xFFFF (leBytes 8 (u.toNat * 2 ^ 32 + 2 ^ 63)) s

/-- Threads whose wait or lock a knot of the shuttle now meets go on, in ascending order (log 13). -/
def wakeShuttle (n : Nat) (s : State) : State :=
  (List.range 16).foldl (fun s t =>
    let h := getShuttle s n
    match ownWait (getThread h t) with
    | some w =>
      let (kn, r) := knotApply w.op w.n w.user (sGet {} w.knot h.knots)
      if r.met then
        let s := putShuttle s n (endOwnWait t w kn r h)
        if r.status = 0x11 then s else recordOwn n w.knot w.user.thread s
      else s
    | none => s) s

/-! ## Knots (R230, R233) -/

/-- The knot of a home. -/
def homeKnot (s : State) : Home → Option Knot
  | .tileKnot x y k => some (sGet {} k (getTile s (tileKey x y)).knots)
  | .shuttleKnot n k => some (sGet {} k (getShuttle s n).knots)
  | _ => none

def putHomeKnot (h : Home) (v : Knot) (s : State) : State :=
  match h with
  | .tileKnot x y k =>
    let t := getTile s (tileKey x y)
    putTile s (tileKey x y) { t with knots := sPut {} k v t.knots }
  | .shuttleKnot n k => updShuttle s n fun q => { q with knots := sPut {} k v q.knots }
  | _ => s

/-- Partition that a home lies in. -/
def homePart (s : State) : Home → Nat
  | .tileKnot x y _ => ownerOf s (quadOf x y)
  | .shuttleKnot n _ => ownerOfShuttle s n
  | .channel n _ => ownerOfShuttle s n
  | .queue n _ => ownerOfShuttle s n
  | .trigger k => ownerOf s (quadOfSide k)
  | .other => 0

/-- Threads of the home's shuttle that its change may wake. -/
def wakeHome (h : Home) (s : State) : State :=
  match h with
  | .shuttleKnot n _ => wakeShuttle n s
  | .channel n _ => wakeShuttle n s
  | .queue n _ => wakeShuttle n s
  | _ => s

/-- Who asks, for the flow and the source chip that a recording keeps. -/
structure Asker where
  src  : MsgFrom
  flow : Nat
  chip : Nat
  deriving DecidableEq, Repr

/-- An operation is applied at a knot: its reply, the knot after it, and the state with its entry and its wakes. An operation that
took no effect, not met or broken, leaves no entry (log 30). -/
def knotAtHome (a : Asker) (target op n : Nat) (u : KnotUser) (first : Bool) (s : State) : Option (KnotReply × Knot × State) :=
  let home := homeAt s target
  (homeKnot s home).map fun k =>
    let (kn, r) := knotApply op n u k
    let kn := countWaiter op u first r kn
    let s := putHomeKnot home kn s
    let s := if r.met && r.status ≠ 0x11 then noteAccepted (homePart s home) 3 target a.flow a.chip a.src (knotPayload op n first u) s else s
    (r, kn, wakeHome home s)

/-! ## Messages (R241 to R249) -/

/-- Bytes of a message as a recording keeps them. -/
def messageBytes (ws : List (Pz 64)) (len : Nat) : Bytes := (ws.flatMap fun w => leBytes 8 w.data.toNat).take len

/-- A slot of a queue has all its contributions. -/
def finishedSlot (h : Shuttle) (q i : Nat) : Bool :=
  let e := readCqSlot h (getQueue h q) i
  e.busy && (getQueue h q).contributors.toNat ≤ e.count

/-- The turn of a queue's message at its channel in a replay (R448): its origin is thread 0 of the shuttle. -/
def queueTurn (s : State) (n c : Nat) : Bool :=
  let p := ownerOfShuttle s n
  !replaying s p || (match nextFor s p 1 (ctlWindow n + 0x1400 + 32 * c) with
    | some (_, e) => e.loc && ofLe e.payload == 16 * n * 2 ^ 32 + 2 ^ 63
    | none => false)

/-- A channel has taken a queue's message. -/
def noteQueueMessage (n c : Nat) (s : State) : State :=
  let p := ownerOfShuttle s n
  let target := ctlWindow n + 0x1400 + 32 * c
  if replaying s p then
    match nextFor s p 1 target with
    | some (i, _) => consume p i s
    | none => s
  else recordNow p 1 true 0 target 0xFFFF (leBytes 8 (16 * n * 2 ^ 32 + 2 ^ 63)) s

/-- Finished slots of a queue write their messages, in ascending order, as far as there is room (R249). -/
def emitFinished (n q : Nat) (s : State) : State :=
  let e := getQueue (getShuttle s n) q
  let c := e.channel.toNat
  if !e.opened then s
  else
    wakeShuttle n ((List.range e.slots.toNat).foldl (fun s i =>
      let h := getShuttle s n
      if !finishedSlot h q i || ((getChannel h c).opened && !queueTurn s n c) then s
      else
        let h' := emitSlot n s.links.chip q i h
        let s := putShuttle s n h'
        if (getChannel h' c).produced = (getChannel h c).produced then s else noteQueueMessage n c s) s)

/-- A message or a contribution at its home: the status of Table 8-3 from `bad_target` on, in the order of R244. `source`: the word of
the record header. `kind`: a message sent as a channel message (0) or as a contribution (1), or either (2), as a tile's (log 31). -/
def messageAtHome (a : Asker) (kind target : Nat) (source : W64) (ws : List (Pz 64)) (len : Nat) (s : State) : Nat × State :=
  match homeAt s target with
  | .channel n c =>
    if kind = 1 then (0x12, s)
    else
      let (h, st) := channelAccept c source ws len (getShuttle s n)
      let s := putShuttle s n h
      if st ≠ 0 then (st, s)
      else (0, wakeShuttle n (noteAccepted (ownerOfShuttle s n) 1 target a.flow a.chip a.src (messageBytes ws len) s))
  | .queue n q =>
    if kind = 0 then (0x12, s)
    else
      let (h, st) := queueAccept q ws len (getShuttle s n)
      let s := putShuttle s n h
      if st ≠ 0 then (st, s)
      else (0, emitFinished n q (noteAccepted (ownerOfShuttle s n) 2 target a.flow a.chip a.src (messageBytes ws len) s))
  | _ => (0x12, s)

end Sys2Proof.Machine
end

