-- ==== Sys2Proof/Machine/EventCtl.lean ====
section
/-! DEFINITION. The event controller: sources and their rings, its clock, records, ring registers and pages (15 R419 to R429). -/

namespace Sys2Proof.Machine

/-! ## Sources (Table 15-11) -/

/-- The ring a source is routed to; none for a source that does not exist. -/
def sourceRing (s : State) (src : Nat) : Option Nat :=
  let v := s.fuses.variant
  if src < 0x100 then
    let g := src / 8
    if quadsOf v ≤ g || src % 8 = 7 then none else if src % 8 = 5 then some 0 else some (ownerOf s g)
  else if src < 0x200 then
    let p := (src - 0x100) / 16 + 1
    if p ≤ quadsOf v && (src - 0x100) % 16 < 10 then some p else none
  else if src < 0x260 then
    let k := (src - 0x200) / 8
    if portFitted v k && (src - 0x200) % 8 < 3 then some (portOwner s k) else none
  else if src < 0x300 then none
  else if src < 0x30C then some 0
  else if 0x340 ≤ src && src < 0x380 then
    let p := (src - 0x340) / 4 + 1
    if p ≤ quadsOf v then some p else none
  else none

def isCondition (src : Nat) : Bool := src == 0x304 || src == 0x305

def getSource (s : State) (src : Nat) : EvSource := sGet {} src s.events.sources
def updSource (src : Nat) (f : EvSource → EvSource) (s : State) : State :=
  { s with events := { s.events with sources := sUpd {} src f s.events.sources } }

def getRing (s : State) (r : Nat) : Ring := sGet {} r s.events.rings
def updRing (r : Nat) (f : Ring → Ring) (s : State) : State :=
  { s with events := { s.events with rings := sUpd {} r f s.events.rings } }

def ringKind (g : Ring) : Nat := bits 1 0 g.cfg.toNat
def ringLog2 (g : Ring) : Nat := bits 7 4 g.cfg.toNat
def ringShuttle (g : Ring) : Nat := bits 15 8 g.cfg.toNat
def ringThread (g : Ring) : Nat := bits 19 16 g.cfg.toNat
def ringRecords (g : Ring) : Nat := 2 ^ ringLog2 g
def ringRoom (g : Ring) : Bool := (g.tail.toNat + 1) % ringRecords g ≠ g.head.toNat

/-- R424: the ring's page and registers exist while its partition does; ring 0 always. -/
def ringExists (s : State) (r : Nat) : Bool := r == 0 || (getPart s r).active.quads ≠ 0

/-! ## Interrupts (R427) -/

def putOut (o : Outbound) (s : State) : State :=
  { s with pack := { s.pack with io := { s.pack.io with outbox := s.pack.io.outbox ++ [o] } } }

def getMailbox (s : State) (f : Nat) : Mailbox := sGet {} f s.pack.io.mailboxes
def updMailbox (f : Nat) (g : Mailbox → Mailbox) (s : State) : State :=
  { s with pack := { s.pack with io := { s.pack.io with mailboxes := sUpd {} f g s.pack.io.mailboxes } } }

/-- MSI-X vector 0 of a function sends, or marks its pending bit while it is masked. -/
def sendMsix (f : Nat) (s : State) : State :=
  if (getMailbox s f).masked then updMailbox f (fun m => { m with irqPending := true }) s else putOut (.msix f) s

/-- Number of the RISC-V machine interrupt-pending register, and its external interrupt bit. -/
def csrMip : Nat := 0x344

def setMeip (n t : Nat) (v : Bool) (s : State) : State :=
  updThread s n t fun th =>
    let old : W64 := sGet 0 csrMip th.csr
    { th with csr := sPut 0 csrMip (if v then old ||| 0x800 else old &&& ~~~0x800) th.csr }

/-- The external interrupt of a kind 2 ring follows whether it holds a record. -/
def ringLevel (r : Nat) (s : State) : State :=
  let g := getRing s r
  if ringKind g = 2 then setMeip (ringShuttle g) (ringThread g) (g.tail ≠ g.head) s else s

/-! ## The controller's clock (R420, R422) -/

/-- A write reaches the sources that its path covers: those of one ring, or all. -/
def covers (s : State) (path : Option FuncNo) (src : Nat) : Bool :=
  match sourceRing s src, path with
  | none, _ => false
  | some _, none => true
  | some r, some f => r == f.val

def eachBit (s : State) (path : Option FuncNo) (b : BitVec 1024) (f : Nat → EvSource → EvSource) : State :=
  (List.range 1024).foldl (fun s src => if b.getLsbD src && covers s path src then updSource src (f src) s else s) s

/-- Step 1: one write is applied. -/
def applyCtlWrite (w : CtlWrite) (s : State) : State :=
  match w with
  | .enableSet f b => eachBit s f b fun _ e => { e with enable := true }
  | .enableClear f b => eachBit s f b fun _ e => { e with enable := false }
  | .pendingSet f b => eachBit s f b fun _ e => { e with pending := true }
  | .pendingClear f b => eachBit s f b fun src e =>
      if isCondition src then { e with pending := false } else { e with pending := false, line := false, multiple := false }
  | .complete f n =>
    if covers s f n.toNat then
      if (getSource s n.toNat).active then updSource n.toNat (fun e => { e with active := false }) s
      else { s with events := { s.events with stray := s.events.stray + 1 } }
    else s

/-- Step 2: every source whose line is 1 is pending. -/
def setPendings (s : State) : State :=
  { s with events := { s.events with
      sources := s.events.sources.map fun e => if e.2.line then (e.1, { e.2 with pending := true }) else e } }

/-- Sources eligible on a ring, lowest first. -/
def eligible (s : State) (r : Nat) : Option Nat :=
  (s.events.sources.find? fun e => e.2.pending && e.2.enable && !e.2.active && sourceRing s e.1 == some r).map (·.1)

/-- Step 3: the ring of this clock is served. -/
def serveRing (c r : Nat) (s : State) : State :=
  let g := getRing s r
  if ringKind g = 0 then s
  else match eligible s r with
  | none => s
  | some src =>
    if !ringRoom g then updRing r (fun g => { g with full := satAdd 16 g.full 1 }) s
    else
      let e := getSource s src
      let a : Assembly := { due := c + 16, ring := Fin.ofNat 17 r, source := BitVec.ofNat 10 src, multiple := e.multiple
                            rack := s.rackNs, detail := e.detail
                            sBeat := if r = 0 then 0 else n64 (getPart s r).hold.sBeat }
      let s := updSource src (fun e =>
        { e with pending := false, active := true, line := isCondition src && e.line, multiple := false }) s
      { s with events := { s.events with assembly := s.events.assembly ++ [a] } }

/-- EVENT_CONTROLLER_CLOCK. -/
def controllerClock (s : State) : State :=
  let c := s.events.clock
  let s := match s.events.writes with
    | [] => s
    | w :: r => applyCtlWrite w { s with events := { s.events with writes := r } }
  let s := setPendings s
  let s := if s.events.holdoff then s else serveRing c (c % 17) s
  { s with events := { s.events with clock := c + 1 } }

/-! ## Records (R423 to R425) -/

def recordWords (g : Ring) (a : Assembly) : List W64 :=
  [n64 (g.seq.toNat + a.source.toNat * 2 ^ 32 + b2n (isCondition a.source.toNat) * 2 ^ 42 + b2n g.lap * 2 ^ 43 + b2n a.multiple * 2 ^ 44
      + a.ring.val * 2 ^ 48), a.rack, a.detail, a.sBeat]

/-- Where the record of a ring goes. -/
def storeRecord (r : Nat) (ws : List W64) (s : State) : State :=
  let g := getRing s r
  let bytes := ws.flatMap fun w => leBytes 8 w.toNat
  let at_ := 32 * g.tail.toNat
  match ringKind g with
  | 1 => putOut (.hostWrite r (g.base + n64 at_) bytes) s
  | 2 => updShuttle s (ringShuttle g) (localWrite (g.base.toNat % 2 ^ 18 + at_) bytes false)
  | 3 => updRing r (fun g => { g with store := sPutAll 0 (4 * g.tail.toNat) ws g.store }) s
  | _ => s

/-- A record enters a ring that is on, with its notice. -/
def ringTakes (r : Nat) (ws : List W64) (s : State) : State :=
  let g := getRing s r
  let s := storeRecord r ws s
  let next := (g.tail.toNat + 1) % ringRecords g
  let s := updRing r (fun g => { g with tail := BitVec.ofNat 12 next, seq := g.seq + 1, records := g.records + 1
                                        lap := if next = 0 then !g.lap else g.lap }) s
  if ringKind g = 1 then (if g.tail = g.head then sendMsix r s else s) else ringLevel r s

/-- Package offset by which a recording names ring r. -/
def ringTarget (r : Nat) : Nat := 0x300020000000 + r * 0x10000

/-- EVENT_RECORD_WRITE: the record due first is written; a ring that has been turned off takes none, and during a replay the ring of
its partition receives recorded records instead (R448). -/
def writeRecordDue (s : State) : State :=
  match s.events.assembly with
  | [] => s
  | a :: rest =>
    if s.events.clock < a.due then s
    else
      let s := { s with events := { s.events with assembly := rest } }
      let r := a.ring.val
      let g := getRing s r
      if ringKind g = 0 || replaying s r then s
      else
        let ws := recordWords g a
        recordNow r 6 false 0 (ringTarget r) 0xFFFF (ws.flatMap fun w => leBytes 8 w.toNat) (ringTakes r ws s)

/-! ## Ring registers (R424) -/

def codeRingInvalid : Nat := 0xD1070001
def codeRingBusy : Nat := 0xD1070002

/-- The rules of R424 for a setting. -/
def ringLegal (s : State) (r : Nat) (cfg base : Nat) : Bool :=
  let kind := bits 1 0 cfg
  let log2 := bits 7 4 cfg
  if kind = 0 then true
  else ringExists s r && 4 ≤ log2 && log2 ≤ 12
    && (match kind with
      | 1 => base % 4096 == 0
      | 2 => r ≠ 0 && base % 32 == 0 && base + 32 * 2 ^ log2 ≤ 0x40000
          && decide (bits 15 8 cfg / 8 < quadsOf s.fuses.variant) && ownerOfShuttle s (bits 15 8 cfg) == r
      | _ => log2 ≤ 8)

/-- A write of ring_cfg: its abort code, and the state. -/
def writeRingCfg (r : Nat) (v : W64) (s : State) : Nat × State :=
  let g := getRing s r
  let v : W64 := v &&& 0xFFFF3
  let v : W64 := n64 (bits 1 0 v.toNat + bits 19 4 v.toNat * 16)
  if !ringLegal s r v.toNat g.base.toNat then (codeRingInvalid, s)
  else if bits 1 0 v.toNat = 0 then
    let s := if ringKind g = 2 then setMeip (ringShuttle g) (ringThread g) false s else s
    (0, updRing r (fun g => { g with cfg := v, store := [] }) s)
  else if ringKind g ≠ 0 then (if v = g.cfg then 0 else codeRingBusy, s)
  else (0, updRing r (fun g => { g with cfg := v, head := 0, tail := 0, lap := false, seq := 0, store := [] }) s)

def writeRingBase (r : Nat) (v : W64) (s : State) : Nat × State :=
  let g := getRing s r
  if ringKind g ≠ 0 then (if v = g.base then 0 else codeRingBusy, s)
  else if !ringExists s r then (codeRingInvalid, s)
  else (0, updRing r (fun g => { g with base := v }) s)

/-- A write of ring_head: room, and an interrupt where records remain (R427). -/
def writeRingHead (r : Nat) (v : BitVec 12) (s : State) : State :=
  let s := updRing r (fun g => { g with head := v }) s
  let g := getRing s r
  if ringKind g = 1 then (if g.head ≠ g.tail then sendMsix r s else s) else ringLevel r s

/-! ## Writes and shadows (R424, R429) -/

def shadowKey : Option FuncNo → Nat
  | some f => f.val
  | none => 17

def updShadow (path : Option FuncNo) (f : Shadows → Shadows) (s : State) : State :=
  { s with events := { s.events with shadows := sUpd {} (shadowKey path) f s.events.shadows } }

def getShadow (s : State) (path : Option FuncNo) : Shadows := sGet {} (shadowKey path) s.events.shadows

/-- A write reaches the controller, where it waits for a clock. -/
def sendCtl (w : CtlWrite) (s : State) : State := { s with events := { s.events with writes := s.events.writes ++ [w] } }

/-- A whole bitmap, or a completion, written through a path: the write, and its shadow. -/
def writeCtl (w : CtlWrite) (s : State) : State :=
  let s := sendCtl w s
  match w with
  | .enableSet f b => updShadow f (fun h => { h with enableSet := b }) s
  | .enableClear f b => updShadow f (fun h => { h with enableClear := b }) s
  | .pendingSet f b => updShadow f (fun h => { h with pendingSet := b }) s
  | .pendingClear f b => updShadow f (fun h => { h with pendingClear := b }) s
  | .complete f n => updShadow f (fun h => { h with complete := n.setWidth 16 }) s

/-! ## Pages and the controller window (Tables 15-9 and 15-13) -/

def bitmap (s : State) (path : Option FuncNo) (f : EvSource → Bool) : BitVec 1024 :=
  BitVec.ofNat 1024 (s.events.sources.foldl (fun a e => if f e.2 && covers s path e.1 then a + 2 ^ e.1 else a) 0)

def wordOf1024 (b : BitVec 1024) (i : Nat) : W64 := (b >>> (64 * i)).setWidth 64

/-- A word of the ring registers, for the page of one ring or the controller window. -/
def eventWord (s : State) (path : Option FuncNo) (o : Nat) : W64 :=
  let i := o % 128 / 8
  let h := getShadow s path
  if 0x3100 ≤ o && o < 0x3180 then wordOf1024 (bitmap s path (·.enable)) i
  else if 0x3180 ≤ o && o < 0x3200 then wordOf1024 h.enableSet i
  else if 0x3200 ≤ o && o < 0x3280 then wordOf1024 h.enableClear i
  else if 0x3280 ≤ o && o < 0x3300 then wordOf1024 (bitmap s path (·.pending)) i
  else if 0x3300 ≤ o && o < 0x3380 then wordOf1024 h.pendingSet i
  else if 0x3380 ≤ o && o < 0x3400 then wordOf1024 h.pendingClear i
  else if 0x3400 ≤ o && o < 0x3480 then wordOf1024 (bitmap s path (·.active)) i
  else if o = 0x3480 then h.complete.setWidth 64
  else if 0x3500 ≤ o && o < 0x3580 then wordOf1024 (bitmap s path (·.line)) i
  else
    match path with
    | none => if o = 0 then n64 (b2n s.events.holdoff + s.events.ibiMask.toNat * 2 ^ 16) else 0
    | some f =>
      let g := getRing s f.val
      if o = 0x3000 then g.cfg
      else if o = 0x3008 then g.base
      else if o = 0x3010 then g.head.setWidth 64
      else if o = 0x3018 then n64 (g.tail.toNat + b2n g.lap * 2 ^ 12)
      else if o = 0x3020 then g.seq.setWidth 64
      else if o = 0x3028 then n64 (g.records.toNat + g.full.toNat * 2 ^ 32)
      else if 0x4000 ≤ o && o < 0x6000 then (if ringKind g = 3 then sGet 0 ((o - 0x4000) / 8) g.store else 0)
      else 0

/-- A word of a function page (R417). -/
def pageWord (s : State) (f : FuncNo) (o : Nat) : W64 :=
  let m := getMailbox s f.val
  if o < 0x1000 then n64 (ofLe (readBytes 0 m.request o 8))
  else if o < 0x2000 then n64 (ofLe (readBytes 0 m.response (o - 0x1000) 8))
  else if o = 0x2000 then m.doorbell.setWidth 64
  else if o = 0x2008 then n64 (m.state.toNat + m.respLen.toNat * 2 ^ 16)
  else if o = 0x2010 then n64 (m.winBase.toNat * 2 ^ 28)
  else eventWord s (some f) o

/-- Bits of a bitmap in its word i. -/
def wordBits (i : Nat) (v : W64) : BitVec 1024 := BitVec.ofNat 1024 (v.toNat * 2 ^ (64 * i))

def mergeWord (i : Nat) (v : W64) (old : BitVec 1024) : BitVec 1024 := (old &&& ~~~(wordBits i (n64 (2 ^ 64 - 1)))) ||| wordBits i v

/-- A write of a word of the ring registers: a word of a bitmap carries its own bits alone; refusals discard it. -/
def putEventWord (path : Option FuncNo) (o : Nat) (v : W64) (s : State) : State :=
  let i := o % 128 / 8
  if 0x3180 ≤ o && o < 0x3200 then
    updShadow path (fun h => { h with enableSet := mergeWord i v h.enableSet }) (sendCtl (.enableSet path (wordBits i v)) s)
  else if 0x3200 ≤ o && o < 0x3280 then
    updShadow path (fun h => { h with enableClear := mergeWord i v h.enableClear }) (sendCtl (.enableClear path (wordBits i v)) s)
  else if 0x3300 ≤ o && o < 0x3380 then
    updShadow path (fun h => { h with pendingSet := mergeWord i v h.pendingSet }) (sendCtl (.pendingSet path (wordBits i v)) s)
  else if 0x3380 ≤ o && o < 0x3400 then
    updShadow path (fun h => { h with pendingClear := mergeWord i v h.pendingClear }) (sendCtl (.pendingClear path (wordBits i v)) s)
  else if o = 0x3480 then writeCtl (.complete path (v.setWidth 10)) s
  else
    match path with
    | none =>
      if o = 0 then { s with events := { s.events with holdoff := v.getLsbD 0, ibiMask := (v >>> 16).setWidth 16 } } else s
    | some f =>
      if o = 0x3000 then (writeRingCfg f.val v s).2
      else if o = 0x3008 then (writeRingBase f.val v s).2
      else if o = 0x3010 then writeRingHead f.val (v.setWidth 12) s
      else s

/-! ## Routing changes (R428) -/

/-- Every source whose ring differs between two states loses its settings. -/
def rerouted (before : State) (s : State) : State :=
  { s with events := { s.events with
      sources := s.events.sources.filter fun e => sourceRing before e.1 == sourceRing s e.1 || isCondition e.1 } }

/-- The ring of a partition that no longer exists turns off. -/
def ringsAfterCommit (s : State) : State :=
  (List.range 17).foldl (fun s r => if ringExists s r || ringKind (getRing s r) = 0 then s else (writeRingCfg r 0 s).2) s

/-- A start sets every source and ring back. -/
def resetEvents (s : State) : State :=
  { s with events := { holdoff := true, ibiMask := s.events.ibiMask } }

/-! ## Commands -/

def execEventControllerClock (s : State) : Host.Outcome State Fault Refusal := .next (controllerClock s)
def execEventRecordWrite (s : State) : Host.Outcome State Fault Refusal := .next (writeRecordDue s)

/-- A write through the page of ring r or the controller window. -/
def evPath : EvPath → Option FuncNo
  | .page r => some r
  | .window => none

def execEnableSet (via : EvPath) (b : BitVec 1024) (s : State) : Host.Outcome State Fault Refusal :=
  .next (writeCtl (.enableSet (evPath via) b) s)
def execEnableClear (via : EvPath) (b : BitVec 1024) (s : State) : Host.Outcome State Fault Refusal :=
  .next (writeCtl (.enableClear (evPath via) b) s)
def execPendingSet (via : EvPath) (b : BitVec 1024) (s : State) : Host.Outcome State Fault Refusal :=
  .next (writeCtl (.pendingSet (evPath via) b) s)
def execPendingClear (via : EvPath) (b : BitVec 1024) (s : State) : Host.Outcome State Fault Refusal :=
  .next (writeCtl (.pendingClear (evPath via) b) s)
def execComplete (via : EvPath) (n : BitVec 10) (s : State) : Host.Outcome State Fault Refusal :=
  .next (writeCtl (.complete (evPath via) n) s)

def execRingCfgWrite (r : FuncNo) (v : W64) (s : State) : Host.Outcome State Fault Refusal :=
  let (code, s) := writeRingCfg r.val v s
  .next (answer code [] s)
def execRingBaseWrite (r : FuncNo) (v : W64) (s : State) : Host.Outcome State Fault Refusal :=
  let (code, s) := writeRingBase r.val v s
  .next (answer code [] s)
def execRingHeadWrite (r : FuncNo) (h : BitVec 12) (s : State) : Host.Outcome State Fault Refusal :=
  .next (writeRingHead r.val h s)

end Sys2Proof.Machine
end

