-- ==== Sys2Proof/Machine/Entries.lean ====
section
/-! DEFINITION. The object dictionary: its entries with their types, classes, rights and defaults (15 R402 to R409 and the entry
tables of every chapter), and which of them a role reaches (14 R380 to R383). -/

namespace Sys2Proof.Machine

/-- Type codes of Table 15-1. -/
def tyBool : Nat := 0x01
def tyU8 : Nat := 0x02
def tyU16 : Nat := 0x03
def tyU32 : Nat := 0x04
def tyU64 : Nat := 0x05
def tyI8 : Nat := 0x06
def tyStr : Nat := 0x0B
def tyBlob : Nat := 0x0C
def tyDomain : Nat := 0x0D

/-- An entry (Table 15-3). `acc`: rights of maker, installer and operator, one hexadecimal digit each: 0 none, 1 read, 2 write,
3 read and write. -/
structure Entry where
  ty   : Nat
  size : Nat
  cls  : Nat
  acc  : Nat
  dflt : Nat
  deriving DecidableEq, Repr

/-- Size of a type (Table 15-1). -/
def tySize (ty : Nat) : Nat :=
  match ty with
  | 0x01 => 1
  | 0x02 => 1
  | 0x03 => 2
  | 0x04 => 4
  | 0x05 => 8
  | 0x06 => 1
  | 0x07 => 2
  | 0x08 => 4
  | 0x09 => 8
  | 0x0A => 4
  | _ => 0

def en (ty cls acc : Nat) : Entry := ⟨ty, tySize ty, cls, acc, 0⟩
def enD (ty cls acc dflt : Nat) : Entry := ⟨ty, tySize ty, cls, acc, dflt⟩
def enN (ty size cls acc : Nat) : Entry := ⟨ty, size, cls, acc, 0⟩

/-! ## Indices (Table 15-4) -/

/-- Index ranges: base, first unit and last unit. The index is base + unit. -/
def indexRanges : List (Nat × Nat × Nat) :=
  [(0x0000, 1, 13), (0x0100, 0, 0), (0x0110, 0, 0), (0x0120, 0, 0), (0x1010, 0, 0), (0x1020, 0, 0), (0x1030, 0, 0), (0x1040, 0, 0),
   (0x1100, 0, 0), (0x1200, 0, 0), (0x2000, 0, 0), (0x2100, 0, 7), (0x2200, 0, 0), (0x2310, 1, 16), (0x2400, 0, 255), (0x2600, 0, 0)]
  ++ [(0x3000, 0, 0), (0x3010, 1, 16), (0x3100, 0, 0), (0x3110, 0, 0), (0x3200, 1, 16), (0x3300, 0, 0), (0x4100, 0, 7),
   (0x4200, 0, 31), (0x4310, 1, 16), (0x5000, 0, 0), (0x5010, 0, 11), (0x5110, 1, 16), (0x6010, 0, 31)]
  ++ [(0x7000, 0, 0), (0x7010, 0, 0), (0x7100, 0, 16), (0x8010, 1, 16), (0x8100, 0, 255), (0x8310, 1, 16), (0x8410, 1, 16),
   (0x9000, 0, 0), (0x9100, 0, 7), (0xA010, 0, 16), (0xA100, 1, 16), (0xA300, 0, 31), (0xA400, 0, 11), (0xA500, 0, 7), (0xB010, 1, 16)]

/-- Base and unit of an index, when it exists. -/
def indexOf (ix : Nat) : Option (Nat × Nat) :=
  (indexRanges.find? fun r => r.1 + r.2.1 ≤ ix && ix ≤ r.1 + r.2.2).map fun r => (r.1, ix - r.1)

/-- Entries by base: subindices from 1 on. -/
def entriesSystem : Nat → List (Nat × Entry)
  | 0x0000 => [(1, en tyU32 4 0x111)]
  | 0x0100 => [(1, enN tyStr 255 4 0x111), (2, enN tyStr 255 4 0x111), (3, en tyU64 4 0x111), (4, enN tyBlob 8 4 0x111),
      (5, enN tyStr 255 0 0x111), (6, en tyU32 0 0x111)]
  | 0x0110 => [(1, en tyU8 4 0x111), (2, en tyU8 4 0x111), (3, en tyU8 4 0x111), (4, en tyU16 4 0x111), (5, en tyU32 4 0x111),
      (6, en tyU16 4 0x111), (7, en tyU8 4 0x111)]
  | 0x0120 => [(1, en tyU16 4 0x111), (2, en tyU32 4 0x111), (3, enN tyDomain 1024 4 0x111)]
  | 0x1010 => [(1, en tyU64 4 0x010), (2, en tyU32 3 0x030), (3, en tyU8 3 0x030), (4, en tyU32 3 0x030), (5, enN tyBlob 16 3 0x030),
      (6, en tyU8 3 0x030), (7, enN tyBlob 16 3 0x030), (8, en tyU8 0 0x010)]
  | 0x1020 => [(1, en tyU16 0 0x010), (2, enD tyU8 4 0x010 16)]
  | 0x1030 => [(1, en tyU8 4 0x010), (2, en tyU8 0 0x010)]
  | 0x1040 => [(1, en tyU64 0 0x010), (2, en tyU64 0 0x010), (3, en tyU32 0 0x010), (4, en tyU32 0 0x010)]
  | 0x1100 => [(1, enN tyBlob 97 3 0x030), (2, enN tyBlob 1696 0 0x030), (3, enN tyDomain 776 3 0x030), (4, en tyU64 3 0x010)]
  | 0x1200 => [(1, en tyU64 3 0x011), (2, enN tyBlob 48 3 0x011), (3, enN tyDomain 651264 3 0x011), (4, en tyU64 3 0x031),
      (5, enN tyBlob 152 3 0x031), (6, en tyU16 3 0x011), (7, en tyU64 3 0x011)]
  | 0x2000 => [(1, en tyU8 0 0x010), (2, en tyU8 0 0x010), (3, en tyU32 0 0x010), (4, en tyU8 0 0x030), (5, en tyU8 0 0x010),
      (6, enN tyDomain 262144 3 0x010), (7, en tyU32 0 0x010), (8, en tyU8 0 0x010), (9, en tyU16 0 0x010)]
  | 0x2100 => [(1, en tyU8 0 0x010), (2, en tyU8 0 0x010), (3, enN tyDomain 262144 0 0x010)]
  | 0x2200 => [(1, en tyU16 3 0x030), (2, en tyU16 0 0x010), (3, en tyU16 4 0x010), (4, enN tyDomain 50 4 0x010),
      (5, en tyU8 0 0x030), (6, en tyU32 0 0x010)]
  | 0x2310 => [(1, en tyU8 0 0x011), (2, enD tyU8 3 0x011 18), (3, enD tyU8 3 0x011 18), (4, en tyU16 0 0x011), (5, en tyU64 0 0x011),
      (6, en tyU32 0 0x011), (7, en tyU32 0 0x011), (8, en tyU32 0 0x011), (9, en tyU16 3 0x030), (10, en tyU16 0 0x010),
      (11, en tyU64 0 0x011), (12, enD tyI8 4 0x010 100)]
  | 0x2400 => [(1, en tyU8 0 0x010), (2, en tyU16 0 0x010), (3, en tyU8 0 0x010), (4, en tyI8 0 0x010), (5, en tyU8 0 0x010),
      (6, en tyU32 0 0x010)]
  | 0x2600 => [(1, en tyU8 0 0x110), (2, en tyU8 3 0x110), (3, en tyU8 0 0x110), (4, enN tyBlob 8 0 0x110), (5, en tyU32 3 0x110)]
  | 0x3000 => [(1, en tyU8 0 0x030), (2, en tyU8 0 0x010), (3, enN tyBlob 16 0 0x010), (4, en tyU32 3 0x010)]
  | 0x3010 => [(1, en tyU32 3 0x031), (2, enD tyU8 3 0x031 18), (3, enD tyU8 3 0x031 18), (4, en tyU16 3 0x031), (5, enN tyBlob 97 3 0x031),
      (6, en tyBool 3 0x031), (7, en tyU32 3 0x011), (8, en tyU16 3 0x011), (9, en tyU32 0 0x011), (10, en tyU64 0 0x011),
      (11, en tyU64 3 0x011)]
  | 0x3100 => [(1, en tyU8 0 0x111), (2, en tyBool 3 0x111), (3, en tyU8 0 0x030), (4, enN tyDomain 8192 4 0x111),
      (5, enN tyBlob 97 3 0x111), (6, enN tyStr 255 4 0x111), (7, en tyU32 0 0x010)]
  | 0x3110 => [(1, enN tyBlob 48 0 0x333), (2, enN tyBlob 568 0 0x111)]
  | 0x3200 => [(1, enN tyBlob 288 0 0x011), (2, enN tyDomain 18432 0 0x011), (3, en tyU64 0 0x011), (4, en tyU8 0 0x011)]
  | 0x3300 => [(1, enN tyDomain 4194304 0 0x030), (2, en tyU8 0 0x030), (3, en tyU8 3 0x010), (4, enN tyBlob 48 3 0x010),
      (5, en tyU8 3 0x010), (6, en tyU8 3 0x010), (7, en tyU8 4 0x010), (8, en tyBool 4 0x010)]
  | _ => []

def entriesUnits : Nat → List (Nat × Entry)
  | 0x4100 => [(1, en tyU64 0 0x010), (2, en tyU64 0 0x010), (3, en tyI8 0 0x010)]
  | 0x4200 => [(1, en tyU64 0 0x011), (2, en tyU64 0 0x011), (3, en tyU32 0 0x011)]
  | 0x4310 => [(1, en tyU64 1 0x011), (2, en tyU64 1 0x011), (3, en tyU64 1 0x011), (4, en tyU8 2 0x011), (5, enD tyU32 2 0x031 16777216),
      (6, en tyU8 0 0x011), (7, en tyU32 1 0x011), (8, en tyU8 1 0x011), (9, en tyU32 1 0x011), (10, en tyU64 1 0x011),
      (11, en tyU64 1 0x011)]
  | 0x5000 => [(1, en tyU16 3 0x030), (2, enN tyBlob 48 3 0x030), (3, enN tyBlob 48 0 0x010), (4, en tyU8 3 0x030),
      (5, enD tyU32 3 0x030 1000000), (6, en tyU64 0 0x010), (7, en tyU8 3 0x030), (8, en tyU8 0 0x010), (9, en tyU32 0 0x010),
      (10, en tyU64 0 0x010)]
  | 0x5010 => [(1, en tyU8 3 0x031), (2, en tyU8 3 0x011), (3, en tyU8 0 0x011), (4, en tyU8 0 0x011), (5, en tyU16 0 0x011),
      (6, en tyU32 0 0x011), (7, en tyU16 0 0x011), (8, en tyU64 0 0x011), (9, en tyU64 0 0x011), (10, en tyU64 0 0x011),
      (11, en tyU32 0 0x011), (12, en tyU16 0 0x011), (13, en tyU8 0 0x011), (16, enN tyBlob 16 3 0x013), (17, en tyU64 3 0x013),
      (18, enN tyBlob 288 3 0x013), (19, en tyU16 3 0x013), (20, en tyU64 0 0x011)]
  | 0x5110 => [(1, enN tyDomain 8192 3 0x031), (2, enD tyU32 3 0x013 1000000), (3, enD tyU32 3 0x013 50000), (4, en tyU16 0 0x011),
      (5, en tyU32 0 0x011), (6, enN tyDomain 512 3 0x033), (7, en tyU64 0 0x011), (8, en tyU64 0 0x011)]
  | 0x6010 => [(1, enN tyDomain 2107568 0 0x033), (2, en tyU8 0 0x033), (3, en tyU8 0 0x031), (4, enN tyBlob 48 0 0x031),
      (5, en tyU8 0 0x031), (6, enN tyBlob 16 0 0x031), (7, enN tyDomain 2040 0 0x031), (8, enN tyDomain 2097152 0 0x031),
      (9, enN tyDomain 16384 0 0x031), (10, en tyU64 0 0x031)]
  | 0x7000 => [(1, enD tyBool 0 0x030 1), (2, enD tyU16 3 0x030 0x23), (3, enN tyDomain 4096 0 0x010), (4, en tyU32 0 0x010)]
  | 0x7010 => [(1, enN tyBlob 128 0 0x011), (2, enN tyBlob 128 0 0x033), (3, enN tyBlob 128 0 0x033), (4, enN tyBlob 128 0 0x011),
      (5, enN tyBlob 128 0 0x033), (6, enN tyBlob 128 0 0x033), (7, enN tyBlob 128 0 0x011), (8, en tyU16 0 0x033),
      (9, enN tyBlob 128 0 0x011)]
  | 0x7100 => [(1, en tyU64 0 0x033), (2, en tyU64 0 0x033), (3, en tyU16 0 0x033), (4, en tyU16 0 0x011), (5, en tyU32 0 0x011),
      (6, en tyU64 0 0x011), (7, enN tyDomain 8192 0 0x011)]
  | 0x8010 => [(1, enN tyDomain 4294967295 1 0x013), (2, en tyU8 1 0x013), (3, en tyU8 1 0x011), (4, enN tyBlob 48 1 0x011),
      (5, enN tyBlob 48 2 0x013), (6, enN tyBlob 32 1 0x011), (7, en tyU64 1 0x011), (8, en tyU16 1 0x011), (9, enN tyDomain 8192 1 0x013),
      (10, en tyU64 2 0x013)]
  | 0x8100 => [(1, en tyU64 0 0x011), (2, en tyU64 0 0x011), (3, en tyU8 0 0x011), (4, enN tyDomain 256 0 0x011)]
  | 0x8310 => [(1, en tyU32 1 0x011), (2, en tyU32 1 0x011), (3, enD tyU32 2 0x013 256), (4, en tyU32 1 0x011), (5, en tyU64 1 0x011),
      (6, en tyU32 1 0x011)]
  | 0x8410 => [(1, en tyU8 1 0x033), (2, en tyU8 1 0x011), (3, en tyU64 1 0x013), (4, en tyU64 1 0x013), (5, enD tyU8 2 0x013 2),
      (6, en tyU32 1 0x011), (7, en tyU8 1 0x011), (8, enN tyBlob 56 1 0x011), (9, en tyU64 1 0x011), (10, en tyU32 1 0x011),
      (11, en tyU32 1 0x011), (12, en tyU32 2 0x013), (13, en tyU64 2 0x013), (14, enN tyBlob 48 1 0x011), (15, enN tyBlob 48 1 0x011),
      (16, en tyU8 1 0x011)]
  | 0x9000 => [(1, en tyU16 0 0x110), (2, en tyI8 0 0x110), (3, en tyI8 0 0x110), (4, en tyU64 0 0x110)]
  | 0x9100 => [(1, en tyI8 0 0x110), (2, en tyU16 0 0x110)]
  | 0xA010 => [(1, en tyU64 0 0x333), (2, enN tyDomain 4294967295 0 0x333), (3, en tyU32 0 0x111), (4, en tyU64 0 0x111)]
  | 0xA100 => [(1, en tyU8 0 0x233), (2, en tyU64 0 0x033), (3, en tyU8 0 0x011), (4, en tyU8 2 0x033), (5, en tyBool 2 0x033),
      (6, en tyU64 2 0x033), (7, en tyU32 2 0x033), (8, enN tyBlob 56 0 0x011), (9, enN tyBlob 16 0 0x033), (10, en tyU64 0 0x011)]
  | 0xA300 => [(1, enN tyBlob 128 0 0x011)]
  | 0xA400 => [(1, enN tyBlob 16 0 0x011), (2, enN tyBlob 32 0 0x011)]
  | 0xA500 => [(1, en tyU16 0 0x010), (2, en tyU16 0 0x010), (3, en tyU32 0 0x030), (4, enN tyDomain 65536 3 0x030)]
  | 0xB010 => [(1, en tyU8 0 0x033), (2, en tyU8 0 0x011), (3, en tyU64 2 0x033), (4, en tyU64 2 0x033), (5, enN tyDomain 4294967295 0 0x033),
      (6, en tyU64 0 0x011), (7, en tyU64 0 0x011), (8, enD tyU64 0 0x033 10000000), (9, en tyU64 0 0x011)]
  | _ => []

def entriesAt (base : Nat) : List (Nat × Entry) := if base < 0x4000 then entriesSystem base else entriesUnits base

/-- Subindex 0 of every index is a U8 (R402). -/
def entryOf (base sub : Nat) : Option Entry :=
  if sub = 0 then some (en tyU8 4 ((entriesAt base).foldl (fun a e => Nat.lor a (Nat.land e.2.acc 0x111)) 0))
  else ((entriesAt base).find? fun e => e.1 == sub).map (·.2)

def highestSub (base : Nat) : Nat := (entriesAt base).foldl (fun a e => max a e.1) 0

/-- Entries the package defines, absent units included, subindex 0 of each index among them. -/
def entryCount : Nat := (indexRanges.map fun r => (r.2.2 - r.2.1 + 1) * ((entriesAt r.1).length + 1)).sum

def indexList : List Nat := indexRanges.flatMap fun r => (List.range (r.2.2 - r.2.1 + 1)).map fun i => r.1 + r.2.1 + i

/-! ## Units and their owners (R6, R405) -/

/-- The unit of an entry is there. -/
def unitPresent (v : Variant) (base unit sub : Nat) : Bool :=
  match base with
  | 0x2100 => decide (unit < diesOf v)
  | 0x4100 => decide (unit < diesOf v)
  | 0x9100 => decide (unit < diesOf v)
  | 0xA500 => decide (unit < diesOf v)
  | 0x2400 => decide (unit / 32 < diesOf v)
  | 0x4200 => decide (unit < quadsOf v)
  | 0xA300 => decide (unit < quadsOf v)
  | 0x6010 => decide (unit < quadsOf v) && hasLacework v
  | 0x8100 => decide (unit / 8 < quadsOf v)
  | 0x5010 => portFitted v unit && (sub < 16 || (10 ≤ unit && bitAt (unit - 10) (ingestMask v)))
  | 0xA400 => portFitted v unit
  | b => b < 0x2310 || b == 0x2600 || b == 0x3000 || b == 0x3100 || b == 0x3110 || b == 0x3300 || b == 0x5000 || b == 0x7000
      || b == 0x7010 || b == 0x9000 || decide (unit ≤ quadsOf v)

/-- The partition an entry belongs to; none for entries of the package, 0 for an unassigned unit. -/
def entryOwner (s : State) (base unit : Nat) : Option Nat :=
  match base with
  | 0x4200 => some (ownerOf s unit)
  | 0x6010 => some (ownerOf s unit)
  | 0xA300 => some (ownerOf s unit)
  | 0x8100 => some (ownerOf s (unit / 8))
  | 0x5010 => some (portOwner s unit)
  | 0xA400 => some (portOwner s unit)
  | 0x2310 => some unit
  | 0x3010 => some unit
  | 0x3200 => some unit
  | 0x4310 => some unit
  | 0x5110 => some unit
  | 0x7100 => some unit
  | 0x8010 => some unit
  | 0x8310 => some unit
  | 0x8410 => some unit
  | 0xA010 => some unit
  | 0xA100 => some unit
  | 0xB010 => some unit
  | _ => none

/-! ## Rights (R380, R396, R405, R455) -/

/-- Rights of a role by the entry table: bit 0 read, bit 1 write. -/
def tableRight (e : Entry) : Role → Nat
  | .none => 0
  | .maker => bits 9 8 e.acc
  | .installer => bits 5 4 e.acc
  | .operator _ => bits 1 0 e.acc

/-- The installer reaches data of assigned quadrants, and starts no debug hold of theirs, outside approved mode only; data entries
are those of R380. -/
def isDataEntry (base sub : Nat) : Bool := (base == 0x6010 && sub == 9) || (base == 0x8010 && sub == 1)

/-- The maker's reach of a partition: its countersigned grant names it. -/
def makerNames (s : State) (p : Nat) : Bool :=
  match grantMask s with
  | some m => bitAt p m
  | none => false

/-- R405 with R380: whether a role may read (`write` false) or write an entry. -/
def mayAccess (s : State) (r : Role) (base unit sub : Nat) (e : Entry) (write : Bool) : Bool :=
  let right := bitAt (b2n write) (tableRight e r)
  let owner := entryOwner s base unit
  match r with
  | .none => base < 0x1000 && 0x0100 ≤ base && !write
  | .operator p =>
    right && (match owner with
      | some o => o == p.val
      | none => true)
  | .installer =>
    right && !(base == 0xA010 && unit ≠ 0)
      && (if base == 0xA100 || base == 0xB010 then !write || !s.sec.caerec.approved else true)
      && (if isDataEntry base sub && owner ≠ some 0 then !s.sec.caerec.approved else true)
  | .maker =>
    right && !(base == 0xA010 && unit ≠ 0) && (if base == 0xA100 then makerNames s unit else true)

/-- A credential of the role is registered (R381 to R383). -/
def credentialed (s : State) : Role → Bool
  | .none => false
  | .maker => !allZero s.sec.roles.grant
  | .installer => !allZero s.sec.roles.installerKey
  | .operator p => !allZero (getPart s p.val).active.key

/-- R364: entries served while the start has not reached P11. -/
def servedEarly (ix : Nat) : Bool := (0x0100 ≤ ix && ix < 0x1000) || (0x2000 ≤ ix && ix < 0x3000)

def notStarted (s : State) (ix : Nat) : Bool := !s.pack.start.complete && !servedEarly ix

/-- R382: reads that need no signature. -/
def readsUnsigned (ix : Nat) : Bool := 0x0100 ≤ ix && ix < 0x1000

/-- Checks 3 to 6 of R413 for a request whose signature has been verified; 0 when they pass. -/
def accessCheck (s : State) (r : Role) (ix sub : Nat) (write : Bool) : Nat :=
  if notStarted s ix then codeNotStarted
  else match indexOf ix with
  | none => codeNoObject
  | some (base, unit) =>
    match entryOf base sub with
    | none => codeNoSubindex
    | some e =>
      if !unitPresent s.fuses.variant base unit sub then codeUnitAbsent
      else if r = .none then (if readsUnsigned ix && !write then 0 else codeRoleRefused)
      else if readsUnsigned ix && !write then 0
      else if moduleDown s then codeModuleError
      else if r = .maker && !credentialed s r then codeGrantExpired
      else if !credentialed s r then codeBadSignature
      else if write && bits 5 4 e.acc < 2 && bits 1 0 e.acc < 2 && bits 9 8 e.acc < 2 then codeReadOnly
      else if !mayAccess s r base unit sub e write then codeRoleRefused
      else 0

/-- Check 7 of R413: type and length, and BOOL values. The maker grant is the one BLOB of variable length. -/
def typeCheck (e : Entry) (data : Bytes) : Nat :=
  let variable_ := e.ty = tyStr || e.ty = tyDomain || e.size = 1696
  if variable_ then (if e.size < data.length then codeTypeLength else 0)
  else if e.size ≠ data.length then codeTypeLength
  else if e.ty = tyBool && 1 < ofLe data then codeValueRange
  else 0

/-- Kinds of record (Table 14-8). -/
def kindWrite : Nat := 1
def kindCommand : Nat := 2
def kindRead : Nat := 3
def kindLoad : Nat := 4
def kindEvent : Nat := 5

/-- Entries whose writes are commands. -/
def isCommandEntry (base sub : Nat) : Bool :=
  (base == 0x2000 && sub == 4) || (base == 0x3000 && sub == 1) || (base == 0x3100 && sub == 3) || (base == 0x3300 && sub == 2)
    || (base == 0x6010 && sub == 2) || (base == 0x8010 && sub == 2) || (base == 0x8410 && sub == 1) || (base == 0xA100 && sub == 1)
    || (base == 0xA500 && sub == 3) || (base == 0xB010 && sub == 1)

def transportCode : Option Transport → Nat
  | none => 0
  | some (.mgmt _ _) => 1
  | some (.pcie _) => 2
  | some .i3c => 3

/-- Requests that reach check 5 of R413 are recorded. -/
def reachesAudit (code : Nat) : Bool :=
  !(code == codeNotStarted || code == codeNoObject || code == codeNoSubindex || code == codeUnitAbsent)

/-- A write or command by a role, verified: the checks, the effect, and its audit record (R388, R389, R413). `effect` answers an
abort code, 0 for success. -/
def roleRequest (tr : Option Transport) (r : Role) (ix sub : Nat) (data : Bytes) (effect : State → Nat × State) (s : State) : State :=
  let code := accessCheck s r ix sub true
  let code := if code = 0 then
      (match indexOf ix with
      | some (base, _) => (match entryOf base sub with
        | some e => typeCheck e data
        | none => codeNoSubindex)
      | none => codeNoObject)
    else code
  let code := if code = 0 && auditBlocked s && !(ix == 0x1200 && sub == 4) then codeAuditFull else code
  let (code, s) := if code = 0 then effect s else (code, s)
  let kind := if isCommandEntry ((indexOf ix).map (·.1) |>.getD 0) sub then kindCommand else kindWrite
  let s := if reachesAudit code then
      auditAppend { role := roleCode r, part := rolePart r, transport := transportCode tr, index := ix, sub := sub, kind := kind
                    result := code, value := data } s
    else s
  answer code [] s

/-- A read by a role, verified; the maker's are recorded (R388). `value` may draw free values. -/
def roleRead (tr : Option Transport) (r : Role) (ix sub : Nat) (value : State → Bytes × State) (s : State) : State :=
  let code := accessCheck s r ix sub false
  let (data, s) := if code = 0 then value s else ([], s)
  let s := if r = .maker && reachesAudit code then
      auditAppend { role := roleCode r, part := 0, transport := transportCode tr, index := ix, sub := sub, kind := kindRead, result := code } s
    else s
  answer code data s

/-! ## Flash (R406, R464) -/

def setPins (s : State) (f : Pins → Pins) : State := { s with pack := { s.pack with pins := f s.pack.pins } }

/-- A flash command waits for a grant. -/
def queueFlash (op : FlashOp) (s : State) : State := setPins s fun p => { p with flash := p.flash ++ [op], spiReq := true }

/-- The effect of a write of a class 3 entry: once it is made, a copy of the settings is due (log 23). -/
def storedEffect (ix sub : Nat) (old : Bytes) (effect : State → Nat × State) (s : State) : Nat × State :=
  let (code, s) := effect s
  if code = 0 then (0, queueFlash (.settings (BitVec.ofNat 16 ix) (BitVec.ofNat 8 sub) old) s) else (code, s)

/-- A command given as a row of the table, by a role whose request has been verified. -/
def commandBy (r : Role) (ix sub value : Nat) (effect : State → Nat × State) (s : State) : Host.Outcome State Fault Refusal :=
  .next (roleRequest none r ix sub [BitVec.ofNat 8 value] effect s)

end Sys2Proof.Machine
end

