-- ==== Sys2Proof/Machine/Windows.lean ====
section
/-! DEFINITION. Reads of the package offset space by any requester (01 R35, R36, 02 R63 to R66, 12 Table 12-9, 15 R417), and the
statuses they end with (Table 8-3). -/

namespace Sys2Proof.Machine

/-! ## Statuses (Table 8-3) -/

def stDone : Nat := 0x00
def stPoisoned : Nat := 0x01
def stUnmapped : Nat := 0x02
def stWall : Nat := 0x03
def stMisaligned : Nat := 0x04
def stTileBusy : Nat := 0x05
def stPending : Nat := 0x06
def stNoSlot : Nat := 0x07
def stNoRoom : Nat := 0x08
def stClosed : Nat := 0x09
def stTooLong : Nat := 0x0A
def stRingSmall : Nat := 0x0B
def stBadRing : Nat := 0x0C
def stNoChannel : Nat := 0x0D
def stBadAck : Nat := 0x0E
def stUnderflow : Nat := 0x0F
def stOverflow : Nat := 0x10
def stBroken : Nat := 0x11
def stBadTarget : Nat := 0x12
def stTableFull : Nat := 0x13
def stBadContribution : Nat := 0x14
def stRangeInvalid : Nat := 0x15
def stUnreachable : Nat := 0x16
def stAborted : Nat := 0x17
def stBadQueue : Nat := 0x19

/-! ## Regions that are gated (R359) -/

/-- Global region of a tile (R348). -/
def regionOfTile (x y : Nat) : Nat := dieOf x y * 32 + y % 256 / 64 * 8 + x % 512 / 64

def getRegion (s : State) (r : Nat) : ClockRegion := sGet {} r s.pack.regions
def updRegion (r : Nat) (f : ClockRegion → ClockRegion) (s : State) : State :=
  { s with pack := { s.pack with regions := sUpd {} r f s.pack.regions } }

def tileGated (s : State) (x y : Nat) : Bool := (getRegion s (regionOfTile x y)).state ≠ 1

/-! ## The lacework window (Table 12-9) -/

def laceStatus (g : LaceSeg) : W64 :=
  n64 (g.state.toNat + g.ratio.toNat * 2 ^ 2 + b2n g.signed * 2 ^ 5 + g.table.length / 8 * 2 ^ 6 + b2n g.capturePending * 2 ^ 14
    + b2n g.captureValid * 2 ^ 15)

def laceWindowWord (g : LaceSeg) (o : Nat) : W64 :=
  if o < 0x200000 then
    n64 ((sGet 0 (cellKey (o / 0x1000) (o % 0x1000 / 32)) g.cells).toNat / 2 ^ (o % 32 / 8 * 64))
  else if o < 0x204000 then
    let b := (o - 0x200000) * 4
    n64 ((List.range 32).foldl (fun a i =>
      a + b2n (sGet false (b + i) g.cap0) * 2 ^ (2 * i) + b2n (sGet false (b + i) g.cap1) * 2 ^ (2 * i + 1)) 0)
  else if o = 0x300000 then laceStatus g
  else if o = 0x300008 then g.ctl
  else if o = 0x300010 then g.captureWBeat
  else if o = 0x300018 then laceCounts g
  else if o = 0x300020 then n64 (g.wordsIn.toNat + g.wordsOut.toNat * 2 ^ 32)
  else if 0x400000 ≤ o && o < 0x400820 then n64 (ofLe (bytesAt (g.header ++ g.table) (o - 0x400000) 8))
  else if 0x500000 ≤ o && o < 0x500020 then n64 (maskOf 64 fun i => sGet false ((o - 0x500000) * 8 + i) g.sticky)
  else 0

/-! ## The package services range (R417) -/

/-- What an offset of the services range is. -/
inductive Service
  | page (f : FuncNo) (o : Nat)
  | controller (o : Nat)
  | none
  deriving DecidableEq, Repr

def serviceOf (o : Nat) : Service :=
  if o < 0x110000 then .page (Fin.ofNat 17 (o / 0x10000)) (o % 0x10000)
  else if 0x800000 ≤ o && o < 0x810000 then .controller (o - 0x800000)
  else .none

/-- An installer request reaches the controller window; for every other requester it is unmapped. -/
def isInstaller : Requester → Bool
  | .host f => f.val == 0
  | .dxp r => r == .installer
  | _ => false

/-- The region an offset names to a requester (R36, R417). -/
def regionFor (s : State) (by_ : Requester) (o : Nat) : Region :=
  match classify s.fuses.variant o with
  | .service k =>
    (match serviceOf k with
    | .page _ _ => .service k
    | .controller _ => if isInstaller by_ then .service k else .unmapped
    | .none => .unmapped)
  | r => r

/-! ## Request slots of an ingest port (R314, R316) -/

/-- A slot's request may be carried out (Table 11-6). -/
def spoolLegal (s : State) (k : Nat) (x : SpoolSlot) : Bool :=
  let n := bits 7 0 x.w3.toNat
  let buf := bits 25 8 x.w3.toNat
  let len := bits 43 26 x.w3.toNat
  n / 8 < quadsOf s.fuses.variant && ownerOfShuttle s n == portOwner s k && buf % 64 == 0 && 1 ≤ len && len ≤ 131072
    && buf + len ≤ 0x40000

/-- The READ of a slot for a stretch of its request. -/
def spoolRead (i : Nat) (x : SpoolSlot) (off len : Nat) : SpoolRead :=
  { server := BitVec.ofNat 4 (bits 3 0 x.w0.toNat), requestId := BitVec.ofNat 32 (i + x.count.toNat * 64), object := x.w1
    offset := x.w2 + n64 off, length := BitVec.ofNat 32 len }

/-- A READ leaves the port; in a replay it is answered from the recording instead (R448). -/
def sendReads (k : Nat) (rs : List SpoolRead) (s : State) : State :=
  if replaying s (portOwner s k) then s else updPort s k fun q => { q with reads := q.reads ++ rs }

/-- Writing word 3 starts the request of a slot; one that Table 11-6 does not allow starts nothing (log 36). -/
def startSpool (k i : Nat) (s : State) : State :=
  let x : SpoolSlot := sGet {} i (getPort s k).spool
  if !spoolLegal s k x then s
  else
    let x := { x with state := 1, tries := 1, error := 0, received := 0, count := x.count + 1, got := [], since := s.nowNs }
    sendReads k [spoolRead i x 0 (bits 43 26 x.w3.toNat)] (updPort s k fun q => { q with spool := sPut {} i x q.spool })

/-- One spool slot word, written by the port's shuttles (R316) in ingest mode, while the slot is not busy (R314). Reserved bits read
as zero. -/
def putSpoolWord (k o : Nat) (v : W64) (s : State) : State :=
  let q := getPort s k
  let i := (o - 0x2000) / 32
  let x : SpoolSlot := sGet {} i q.spool
  if x.state = 1 || q.mode ≠ 1 then s
  else
    let put (x : SpoolSlot) : State := putPort s k { q with spool := sPut {} i x q.spool }
    match o / 8 % 4 with
    | 0 => put { x with w0 := v &&& 0xFF0F }
    | 1 => put { x with w1 := v }
    | 2 => put { x with w2 := v }
    | _ => startSpool k i (put { x with w3 := v &&& 0xFFFFFFFFFFF })

/-- Reading a status word in state 2 or 3 frees its slot (Table 11-6). -/
def freeSpool (i : Nat) (m : Sparse SpoolSlot) : Sparse SpoolSlot :=
  let x : SpoolSlot := sGet {} i m
  if x.state = 2 || x.state = 3 then sPut {} i { x with state := 0 } m else m

/-- The status words that a read of the port's window takes. -/
def statusTaken (k o n : Nat) (s : State) : State :=
  let taken (m : Sparse SpoolSlot) : Sparse SpoolSlot := (List.range ((n + 7) / 8)).foldl (fun m i =>
    if 0x3000 ≤ o + 8 * i && o + 8 * i < 0x3200 then freeSpool ((o + 8 * i - 0x3000) / 8) m else m) m
  if o + n ≤ 0x3000 || 0x3200 ≤ o then s else updPort s k fun q => { q with spool := taken q.spool }

/-! ## Reads -/

/-- An access of `n` bytes that is neither 4 or 8 bytes at a natural offset nor a run of 8-byte accesses (R64). -/
def misaligned64 (o n : Nat) : Bool := !((n == 4 && o % 4 == 0) || (n ≠ 0 && n % 8 == 0 && o % 8 == 0))

/-- Windows of 64-bit words, where R64 governs sizes. -/
def isWindow : Region → Bool
  | .hbm _ _ => false
  | .shuttleMem _ _ => false
  | _ => true

/-- A 64-bit word of a window. -/
def windowWord (s : State) (r : Region) : W64 :=
  match r with
  | .tile x y o =>
    if tileGated s x y then 0
    else
      let p := ownerOf s (quadOf x y)
      let h := (getPart s p).hold
      tileWindowWord (if p = 0 then 0 else tileExec h) p h.sBeat x y (getTile s (tileKey x y)) o
  | .shuttleCtl n o => shuttleCtlWord (getShuttle s n) o
  | .sideWin k o => sideWindowWord (getSide s k) o
  | .port k o => portWindowWord s k o
  | .service o =>
    (match serviceOf o with
    | .page f q => pageWord s f q
    | .controller q => eventWord s none q
    | .none => 0)
  | .lace g o => laceWindowWord (getLace s g) o
  | _ => 0

/-- The region `d` bytes on. -/
def regionPlus (d : Nat) : Region → Region
  | .hbm g o => .hbm g (o + d)
  | .tile x y o => .tile x y (o + d)
  | .shuttleMem n o => .shuttleMem n (o + d)
  | .shuttleCtl n o => .shuttleCtl n (o + d)
  | .sideWin k o => .sideWin k (o + d)
  | .port k o => .port k (o + d)
  | .service o => .service (o + d)
  | .lace g o => .lace g (o + d)
  | r => r

def regionLow : Region → Nat
  | .tile _ _ o => o
  | .shuttleCtl _ o => o
  | .sideWin _ o => o
  | .port _ o => o
  | .service o => o
  | .lace _ o => o
  | _ => 0

/-- Bytes of a window, word by word. -/
def windowBytes (s : State) (r : Region) (n : Nat) : Bytes :=
  let low := regionLow r % 8
  let first := regionPlus 0 r
  let words := (List.range ((low + n + 7) / 8)).flatMap fun i =>
    let at_ : Region := match first with
      | .tile x y o => .tile x y (o / 8 * 8 + 8 * i)
      | .shuttleCtl m o => .shuttleCtl m (o / 8 * 8 + 8 * i)
      | .sideWin k o => .sideWin k (o / 8 * 8 + 8 * i)
      | .port k o => .port k (o / 8 * 8 + 8 * i)
      | .service o => .service (o / 8 * 8 + 8 * i)
      | .lace g o => .lace g (o / 8 * 8 + 8 * i)
      | q => q
    leBytes 8 (windowWord s at_).toNat
  (words.drop low).take n

/-- What an access returns: status, bytes, poison. -/
structure Access where
  status : Nat
  data   : Bytes := []
  poison : Bool := false
  deriving DecidableEq, Repr

/-- A read of `n` bytes at a package offset for a requester. The wall acts on mapped offsets only (R36). -/
def readOffset (by_ : Requester) (o n : Nat) (out : SectorOutcome) (s : State) : Access × State :=
  let r := regionFor s by_ o
  if r = .unmapped then (⟨stUnmapped, [], false⟩, s)
  else if !mayReach s r by_ then (⟨stWall, [], false⟩, countWall by_ s)
  else if isWindow r && misaligned64 o n then (⟨stMisaligned, [], false⟩, s)
  else match r with
  | .hbm g off =>
    let (d, p, s) := readHbm g off n out s
    (⟨if p then stPoisoned else stDone, d, p⟩, s)
  | .shuttleMem m off =>
    let h := getShuttle s m
    let p := localPoison h off n
    (⟨if p then stPoisoned else stDone, localRead h off n, p⟩, s)
  | .port k q => (⟨stDone, windowBytes s r n, false⟩, statusTaken k q n s)
  | r => (⟨stDone, windowBytes s r n, false⟩, s)

/-! ## Writes -/

/-- The step service and the loader (R218, R253): a machine-mode thread is the step service (R220). -/
def isService (s : State) : Requester → Bool
  | .loader _ => true
  | .stepService _ => true
  | .shuttle n t => (getThread (getShuttle s n.val) t.val).machine
  | _ => false

/-- Requesters that write `lace_ctl` (R339). -/
def mayCapture (s : State) : Requester → Bool
  | .host _ => true
  | .dxp (.operator _) => true
  | .dxp .installer => true
  | r => isService s r

/-- A capture is requested (R340). -/
def requestCapture (g : Nat) (s : State) : State :=
  updLace s g fun v => if v.state = 2 then { v with capturePending := true } else v

/-- What rings the doorbell of a page: function, length, state. -/
abbrev Bell := Nat → Nat → State → State

/-- A write of the bits of one 64-bit word of a function page (Tables 15-9 and 15-10). -/
def putPageWord (bell : Bell) (f : FuncNo) (o : Nat) (data : Bytes) (s : State) : State :=
  if o < 0x1000 then updMailbox f.val (fun m => { m with request := writeBytes 0 o data m.request }) s
  else if o = 0x2000 then bell f.val (ofLe data % 8192) s
  else if o / 8 * 8 = 0x2010 then
    let old := (getMailbox s f.val).winBase.toNat * 2 ^ 28
    let v := if data.length = 8 then ofLe data
      else if o % 8 = 0 then old / 2 ^ 32 * 2 ^ 32 + ofLe data else old % 2 ^ 32 + ofLe data * 2 ^ 32
    updMailbox f.val (fun m => { m with winBase := BitVec.ofNat 20 (bits 47 28 v) }) s
  else if 0x3000 ≤ o && o < 0x4000 then
    let old := (eventWord s (some f) (o / 8 * 8)).toNat
    let clears := 0x3100 ≤ o
    let v := if data.length = 8 then ofLe data
      else if o % 8 = 0 then (if clears then 0 else old / 2 ^ 32 * 2 ^ 32) + ofLe data
      else (if clears then 0 else old % 2 ^ 32) + ofLe data * 2 ^ 32
    putEventWord (some f) (o / 8 * 8) (n64 v) s
  else s

/-- Whole words of a byte string with their places. -/
def wordsFrom (o : Nat) (data : Bytes) : List (Nat × W64) :=
  (List.range (data.length / 8)).map fun i => (o + 8 * i, n64 (ofLe (bytesAt data (8 * i) 8)))

def isShuttle : Requester → Bool
  | .shuttle _ _ => true
  | _ => false

/-- Statuses of a tile window write (R67). -/
def windowStatus : WindowWrite → Nat
  | .done => stDone
  | .busy => stTileBusy
  | .rangeInvalid => stRangeInvalid

/-- A write at a package offset. `poison`: poison of what is written. -/
def writeOffset (bell : Bell) (by_ : Requester) (o : Nat) (data : Bytes) (poison : Bool) (s : State) : Access × State :=
  let r := regionFor s by_ o
  let n := data.length
  let done (s : State) : Access × State := (⟨stDone, [], false⟩, s)
  if r = .unmapped then (⟨stUnmapped, [], false⟩, s)
  else if !mayReach s r by_ then (⟨stWall, [], false⟩, countWall by_ s)
  else if isWindow r && misaligned64 o n then (⟨stMisaligned, [], false⟩, s)
  else match r with
  | .hbm g off => done (writeHbm g off data poison s)
  | .shuttleMem m off => done (updShuttle s m (localWrite off data poison))
  | .tile x y off =>
    if tileGated s x y then done s
    else
      let p := ownerOf s (quadOf x y)
      let run := p ≠ 0 && tilesExecute (getPart s p).hold
      let (t, w) := tileWindowPut run x y off data (getTile s (tileKey x y))
      (⟨windowStatus w, [], false⟩, putTile s (tileKey x y) t)
  | .shuttleCtl m off =>
    let p := ownerOf s (m / 8)
    if isService s by_ && !(p ≠ 0 && tilesExecute (getPart s p).hold) then
      done ((wordsFrom off data).foldl (fun s e => updShuttle s m (shuttleCtlPut e.1 e.2)) s)
    else done s
  | .sideWin k off =>
    let p := ownerOf s (quadOfSide k)
    let run := p ≠ 0 && tilesExecute (getPart s p).hold
    if isService s by_ then done ((wordsFrom off data).foldl (fun s e => updSide s k (sideWindowPut run e.1 e.2)) s)
    else if off = 0x2000 && n = 8 && isShuttle by_ then done (updSide s k (sideWindowPut run off (n64 (ofLe data))))
    else done s
  | .port k off =>
    if isShuttle by_ && 0x2000 ≤ off && off < 0x2800 then
      done ((wordsFrom off data).foldl (fun s e => putSpoolWord k e.1 e.2 s) s)
    else done s
  | .service q =>
    (match serviceOf q with
    | .page f off =>
      if n = 4 then done (putPageWord bell f off data s)
      else done ((List.range (n / 8)).foldl (fun s i => putPageWord bell f (off + 8 * i) (bytesAt data (8 * i) 8) s) s)
    | .controller off =>
      done ((wordsFrom off data).foldl (fun s e => putEventWord none e.1 e.2 s) s)
    | .none => done s)
  | .lace g off =>
    if off = 0x300008 && mayCapture s by_ then
      let s := updLace s g fun v => { v with ctl := n64 (ofLe data % 2) }
      done (if bitAt 0 (ofLe data) then requestCapture g s else s)
    else done s
  | _ => done s

end Sys2Proof.Machine
end

