-- ==== Sys2Proof/Machine/Image.lean ====
section
/-! DEFINITION. Acane images: their parts, what makes one bad, placement, relocation and the writes of an install (09 R259 to R267). -/

namespace Sys2Proof.Machine

/-! ## Records -/

/-- A record of a section: its leading 64-bit words and its bytes. -/
structure ImgRec where
  ws   : List Nat
  data : Bytes
  deriving DecidableEq, Repr

def recW (r : ImgRec) (i : Nat) : Nat := r.ws.getD i 0

def wordsOfBytes (n : Nat) (b : Bytes) : List Nat := (List.range n).map fun i => ofLe (bytesAt b (8 * i) 8)

/-- Records of `words` words each, with the bytes that `len` says follow, padded with zeros to 8 (R260). -/
def parseRecs (words : Nat) (len : List Nat → Nat) : Nat → Bytes → Option (List ImgRec)
  | 0, b => if b.isEmpty then some [] else none
  | fuel + 1, b =>
    if b.isEmpty then some []
    else
      let ws := wordsOfBytes words b
      let n := len ws
      let total := 8 * words + (n + 7) / 8 * 8
      if b.length < total || !allZero ((b.drop (8 * words + n)).take (total - 8 * words - n)) then none
      else (parseRecs words len fuel (b.drop total)).map fun rs => ⟨ws, (b.drop (8 * words)).take n⟩ :: rs

def noData : List Nat → Nat := fun _ => 0

/-- A section of the table (Table 9-3). -/
structure ImgSection where
  kind : Nat
  off  : Nat
  size : Nat
  deriving DecidableEq, Repr

/-- An image (Tables 9-2, 9-4, 9-5, 9-10, 9-13). `sizes`: bytes of the sections that the image copy holds. -/
structure Image where
  quadrants  : Nat
  entryAddr  : Nat
  localOnly  : Bool
  hlat       : Nat
  laceQuads  : Nat
  minPorts   : Nat
  needsIngest : Bool
  hbmBytes   : Nat
  places     : List (Nat × Nat)
  tile       : List ImgRec
  side       : List ImgRec
  shuttle    : List ImgRec
  threads    : List ImgRec
  hbm        : List ImgRec
  laceRefs   : List ImgRec
  reloc      : List ImgRec
  budget     : Nat
  sStep      : Nat
  phases     : List ImgRec
  boundary   : List ImgRec
  peers      : Nat
  copyBytes  : Nat
  hbmInit    : Bytes
  deriving DecidableEq, Repr

/-- Where an image is bad: section type and record. -/
abbrev ImgBad := Nat × Nat

/-! ## The section table (R259, R260) -/

def sectionsOf (b : Bytes) : List ImgSection :=
  (List.range (ofLe (bytesAt b 6 2))).map fun i =>
    let at_ := 32 + 32 * i
    ⟨ofLe (bytesAt b at_ 2), ofLe (bytesAt b (at_ + 8) 6), ofLe (bytesAt b (at_ + 16) 6)⟩

def sectionReserved (b : Bytes) (i : Nat) : Bool :=
  let at_ := 32 + 32 * i
  allZero (bytesAt b (at_ + 2) 6) && allZero (bytesAt b (at_ + 14) 2) && allZero (bytesAt b (at_ + 22) 10)

def overlap (a b : ImgSection) : Bool := a.off < b.off + b.size && b.off < a.off + a.size

/-- Header and section table are legal. -/
def tableLegal (b : Bytes) : Bool :=
  let n := ofLe (bytesAt b 6 2)
  let w2 := ofLe (bytesAt b 16 8)
  let ss := sectionsOf b
  32 ≤ b.length && ofLe (bytesAt b 0 4) == 0x4E414341 && ofLe (bytesAt b 4 2) == 1 && 5 ≤ n && n ≤ 32
    && ofLe (bytesAt b 8 8) == b.length && 32 + 32 * n ≤ b.length
    && 1 ≤ bits 5 0 w2 && bits 5 0 w2 ≤ 32 && bits 7 6 w2 == 0 && bits 63 24 w2 == 0
    && (List.range n).all (sectionReserved b)
    && ss.all (fun s => 1 ≤ s.kind && s.kind ≤ 0x0C && s.off % 8 == 0 && 32 + 32 * n ≤ s.off && s.off + s.size ≤ b.length)
    && (List.range n).all (fun i => (List.range i).all fun j =>
      match ss[i]?, ss[j]? with
      | some x, some y => x.kind ≠ y.kind && !overlap x y
      | _, _ => true)
    && [1, 2, 3, 0x0A, 0x0B].all fun k => ss.any fun s => s.kind == k

def sectionBytes (b : Bytes) (k : Nat) : Bytes :=
  match (sectionsOf b).find? fun s => s.kind == k with
  | some s => (b.drop s.off).take s.size
  | none => []

/-! ## Record rules -/

/-- A rectangle of image tiles: x0, y0, x1, y1. -/
def rectOf (w : Nat) : Nat × Nat × Nat × Nat := (bits 9 0 w, bits 25 16 w, bits 41 32 w, bits 57 48 w)

/-- The rectangle covers only tiles of the image quadrants. -/
def rectInside (places : List (Nat × Nat)) (w : Nat) : Bool :=
  let (x0, y0, x1, y1) := rectOf w
  x0 ≤ x1 && y0 ≤ y1
    && (List.range (x1 / 256 + 1 - x0 / 256)).all fun i => (List.range (y1 / 128 + 1 - y0 / 128)).all fun j =>
      places.contains (x0 / 256 + i, y0 / 128 + j)

def rectReserved (w : Nat) : Bool := bits 15 10 w == 0 && bits 31 26 w == 0 && bits 47 42 w == 0 && bits 63 58 w == 0

/-- Bits of the window word at `o` that Tables 2-3, 3-15, 4-5, 5-7 and 6-6 mark RO. -/
def roBits (o : Nat) : Nat :=
  if 0x2800 ≤ o && o < 0x2900 then (if o % 16 = 8 then 2 ^ 64 - 1 else 0x600000FF00000000)
  else if 0x3000 ≤ o && o < 0x3028 then 2 ^ 64 - 1
  else if o = 0x3030 || o = 0x3038 then 2 ^ 64 - 1
  else if o = 0x3400 || o = 0x3408 then 2 ^ 64 - 1
  else if 0x34A0 ≤ o && o < 0x34B8 then 2 ^ 64 - 1
  else if o = 0x3E08 then 0xFFFFFFFF00000000
  else if 0x3E10 ≤ o && o < 0x3F00 then 2 ^ 64 - 1
  else if o = 0x3F00 || o = 0x3F08 then 2 ^ 64 - 1
  else if o = 0x3F10 then 2 ^ 32
  else if 0x3F20 ≤ o && o < 0x3F48 then 2 ^ 64 - 1
  else if 0x3F80 ≤ o && o < 0x3FC0 then 2 ^ 64 - 1
  else 0

/-- A `tile_init` record is legal (R259): its rectangle, offset, length, and no RO field. -/
def tileRecLegal (places : List (Nat × Nat)) (r : ImgRec) : Bool :=
  let o := bits 13 0 (recW r 1)
  rectReserved (recW r 0) && rectInside places (recW r 0) && o % 8 == 0 && bits 31 16 (recW r 1) % 8 == 0
    && bits 15 14 (recW r 1) == 0 && bits 63 32 (recW r 1) == 0
    && (wordsFrom o r.data).all fun e => Nat.land (roBits e.1) e.2.toNat == 0

def unitRecLegal (quadrants : Nat) (w : Nat) : Bool := bits 4 0 w < quadrants && bits 7 5 w == 0 && bits 15 11 w == 0

def phaseLegal (minPorts : Nat) (r : ImgRec) : Bool :=
  let w := recW r 0
  bits 1 0 w ≠ 3 && bits 7 2 w == 0 && bits 63 17 w == 0 && (bits 1 0 w ≠ 2 || 1 ≤ minPorts)
    && (bits 1 0 w ≠ 1 || bits 31 0 (recW r 2) == 0) && (bits 1 0 w == 0 || bits 63 32 (recW r 2) == 0)

/-- Groups follow one another in ascending order. -/
def groupsRise : List ImgRec → Bool
  | a :: b :: r => bits 15 8 (recW a 0) ≤ bits 15 8 (recW b 0) && groupsRise (b :: r)
  | _ => true

def boundaryRecLegal (quadrants : Nat) (r : ImgRec) : Bool :=
  let w := recW r 0
  let unit := bits 8 4 w < quadrants && bits 11 9 w == 0 && !bitAt 15 w
  match bits 3 0 w with
  | 1 => unit && bits 31 24 w == 0 && bits 63 48 w == 0 && recW r 1 == 0 && recW r 2 == 0
  | 2 => unit && bits 63 25 w == 0
  | 3 => unit && bits 63 16 w == 0
  | 4 => bits 63 4 w == 0
  | _ => false

def badIndex (f : ImgRec → Bool) (rs : List ImgRec) : Option Nat := rs.findIdx? fun r => !f r

/-- Records of a section, all legal, or where the section is bad. -/
def checkedRecs (kind : Nat) (rs : Option (List ImgRec)) (f : ImgRec → Bool) : Except ImgBad (List ImgRec) :=
  match rs with
  | none => .error (kind, 0)
  | some rs =>
    match badIndex f rs with
    | some i => .error (kind, i)
    | none => .ok rs

/-- Step 2 of Table 9-8: the image, or where it is bad. -/
def parseImage (b : Bytes) : Except ImgBad Image :=
  if !tableLegal b then .error (0, 0)
  else
    let w2 := ofLe (bytesAt b 16 8)
    let nq := bits 5 0 w2
    let sec := sectionBytes b
    let fuel := b.length
    let prof := wordsOfBytes 2 (sec 1)
    let p0 := prof.getD 0 0
    let arr := wordsOfBytes nq (sec 2)
    let places := arr.map fun w => (bits 1 0 w, bits 10 8 w)
    if (sec 1).length ≠ 16 || bits 63 37 p0 ≠ 0 || 12 < bits 35 32 p0 then .error (1, 0)
    else if (sec 2).length ≠ 8 * nq || arr.any (fun w => bits 7 2 w ≠ 0 || bits 63 11 w ≠ 0) || places.eraseDups.length ≠ nq then .error (2, 0)
    else do
      let tile ← checkedRecs 3 (parseRecs 2 (fun w => bits 31 16 (w.getD 1 0)) fuel (sec 3)) (tileRecLegal places)
      let side ← checkedRecs 4 (parseRecs 1 (fun w => bits 63 32 (w.getD 0 0)) fuel (sec 4)) fun r => unitRecLegal nq (recW r 0)
      let shuttle ← checkedRecs 5 (parseRecs 2 (fun w => w.getD 1 0) fuel (sec 5)) fun r =>
        unitRecLegal nq (recW r 0) && bits 63 34 (recW r 0) == 0
      let threads ← checkedRecs 6 (parseRecs 2 noData fuel (sec 6)) fun r => unitRecLegal nq (recW r 0) && bits 63 20 (recW r 0) == 0
      let hbm ← checkedRecs 7 (parseRecs 2 (fun w => w.getD 1 0) fuel (sec 7)) fun _ => true
      let laceRefs ← checkedRecs 8 (parseRecs 2 noData fuel (sec 8)) fun r =>
        bits 4 0 (recW r 0) < nq && bits 7 5 (recW r 0) == 0 && bits 63 16 (recW r 0) == 0
      let reloc ← checkedRecs 9 (parseRecs 3 noData fuel (sec 9)) fun r =>
        bits 15 11 (recW r 0) == 0 && bits 63 22 (recW r 0) == 0 && bits 10 8 (recW r 0) ≤ 4
      let head := wordsOfBytes 3 (sec 0x0A)
      let phases ← checkedRecs 0x0A (parseRecs 4 noData fuel ((sec 0x0A).drop 24)) (phaseLegal (bits 35 32 p0))
      let boundary ← checkedRecs 0x0B (parseRecs 3 noData fuel (sec 0x0B)) (boundaryRecLegal nq)
      let peers := ofLe (bytesAt (sec 0x0C) 0 8)
      let grid := (phases.filter fun r => bits 1 0 (recW r 0) = 0).map fun r => recW r 1
      if (sec 0x0A).length < 24 || phases.length ≠ bits 15 0 (head.getD 2 0) || phases.isEmpty || 4096 < phases.length
          || bits 63 16 (head.getD 2 0) ≠ 0 || grid.sum ≠ head.getD 1 0 || !groupsRise phases then .error (0x0A, 0)
      else if (boundary.filter fun r => bits 3 0 (recW r 0) = 1).length ≠ 1 then .error (0x0B, 0)
      else if !(sec 0x0C).isEmpty && ((sec 0x0C).length ≠ 8 || peers = 0 || 4096 < peers) then .error (0x0C, 0)
      else .ok {
        quadrants := nq, entryAddr := bits 14 8 w2, localOnly := bitAt 15 w2, hlat := bits 23 16 w2
        laceQuads := bits 31 0 p0, minPorts := bits 35 32 p0, needsIngest := bitAt 36 p0, hbmBytes := prof.getD 1 0
        places := places, tile := tile, side := side, shuttle := shuttle, threads := threads, hbm := hbm
        laceRefs := laceRefs, reloc := reloc, budget := head.getD 0 0, sStep := head.getD 1 0, phases := phases
        boundary := boundary, peers := peers
        copyBytes := (sec 3).length + (sec 4).length + (sec 5).length + (sec 6).length, hbmInit := sec 7 }

/-- The image of an installed pattern; an installed one parses. -/
def imageOf (b : Bytes) : Option Image :=
  match parseImage b with
  | .ok i => some i
  | .error _ => none

def installedImage (s : State) (p : Nat) : Option Image := imageOf (getPart s p).pattern.installed

/-! ## Placement (R261) -/

/-- Quadrant column and row of a global quadrant. -/
def placeOfQuad (g : Nat) : Nat × Nat := (g / 4 % 2 * 2 + g % 2, g / 8 * 2 + g % 4 / 2)

def quadOfPlace (c r : Nat) : Nat := (r / 2 * 2 + c / 2) * 4 + r % 2 * 2 + c % 2

/-- The translation that maps the arrangement onto the partition's quadrants, when there is one. -/
def translation (s : State) (p : Nat) (im : Image) : Option (Int × Int) :=
  let here := (quadsOfPart s p).map placeOfQuad
  match here, im.places with
  | h0 :: hs, i0 :: is =>
    let low (f : Nat × Nat → Nat) (a : Nat × Nat) (r : List (Nat × Nat)) : Nat := r.foldl (fun m e => min m (f e)) (f a)
    let a : Int := (low (·.1) h0 hs : Int) - low (·.1) i0 is
    let b : Int := (low (·.2) h0 hs : Int) - low (·.2) i0 is
    let moved := (i0 :: is).map fun e => ((e.1 : Int) + a, (e.2 : Int) + b)
    let target := (h0 :: hs).map fun e => ((e.1 : Int), (e.2 : Int))
    if moved.length = target.length && moved.all target.contains then some (a, b) else none
  | _, _ => none

/-- The other conditions of R261. -/
def placementLegal (s : State) (p : Nat) (im : Image) (a b : Int) : Bool :=
  let shift (c : Nat) : Int := ((c : Int) + a) / 2 - (c / 2 : Nat)
  b % 2 == 0 && (match im.places with
    | [] => true
    | e :: r => r.all fun f => shift f.1 == shift e.1)
  && im.hlat == (getPart s p).hold.hlat.toNat

/-- Where an image stands: partition and translation. -/
structure Placed where
  p : Nat
  a : Int
  b : Int
  deriving DecidableEq, Repr

/-- Global quadrant of image quadrant q. -/
def gOf (im : Image) (pl : Placed) (q : Nat) : Nat :=
  let e := im.places.getD q (0, 0)
  quadOfPlace ((e.1 : Int) + pl.a).toNat ((e.2 : Int) + pl.b).toNat

def placedTile (pl : Placed) (x y : Nat) : Nat × Nat := (((x : Int) + 256 * pl.a).toNat, ((y : Int) + 128 * pl.b).toNat)

/-- Side k of quadrant g as a package side. -/
def sideOfQuad (g k : Nat) : Nat :=
  let inner := b2n (!outerQuad g)
  g / 4 * 32 + 2 * (8 * (g % 4 / 2) + k) + inner

def rectTiles (pl : Placed) (w : Nat) : List (Nat × Nat) :=
  let (x0, y0, x1, y1) := rectOf w
  (List.range (y1 + 1 - y0)).flatMap fun j => (List.range (x1 + 1 - x0)).map fun i => placedTile pl (x0 + i) (y0 + j)

/-! ## Writing the init sections (R267) -/

/-- A write of one word of a tile by the loader: both program halves are open to it. `false` when it is a forbidden arm; a
refused knot word is discarded (R62). -/
def loadTileWord (x y o : Nat) (v : W64) (t : Tile) : Tile × Bool :=
  if o < 0x2800 then ({ t with banks := sPut {} (o / 8) ⟨v, false⟩ t.banks }, true)
  else
    let (t, w) := tileWriteWord x y o v (n64 (2 ^ 64 - 1)) t
    (t, w ≠ .rangeInvalid)

/-- The state so far, and whether every write has succeeded. -/
abbrev Loading := State × Bool

def loadTileRec (pl : Placed) (r : ImgRec) (l : Loading) : Loading :=
  (rectTiles pl (recW r 0)).foldl (fun l e =>
    let (t, ok) := (wordsFrom (bits 13 0 (recW r 1)) r.data).foldl (fun (a : Tile × Bool) w =>
      let (t, ok) := loadTileWord e.1 e.2 w.1 w.2 a.1
      (t, a.2 && ok)) (getTile l.1 (tileKey e.1 e.2), true)
    (putTile l.1 (tileKey e.1 e.2) t, l.2 && ok)) l

def loadSideRec (im : Image) (pl : Placed) (r : ImgRec) (s : State) : State :=
  let w := recW r 0
  updSide s (sideOfQuad (gOf im pl (bits 4 0 w)) (bits 10 8 w)) fun sd =>
    (wordsFrom (bits 31 16 w) (padTo 8 r.data)).foldl (fun sd e => sideWindowPut false e.1 e.2 sd) sd

def shuttleOfRec (im : Image) (pl : Placed) (w : Nat) : Nat := 8 * gOf im pl (bits 4 0 w) + bits 10 8 w

def loadShuttleRec (im : Image) (pl : Placed) (r : ImgRec) (s : State) : State :=
  updShuttle s (shuttleOfRec im pl (recW r 0)) (localWrite (bits 33 16 (recW r 0)) r.data false)

def loadThreadRec (im : Image) (pl : Placed) (r : ImgRec) (s : State) : State :=
  updThread s (shuttleOfRec im pl (recW r 0)) (bits 19 16 (recW r 0)) fun th => { th with pc := n64 (recW r 1) }

/-- Quadrant and offset that an image address of kind `hbm` names. -/
def imgHbm (im : Image) (pl : Placed) (w : Nat) : Nat × Nat := (gOf im pl (bits 40 36 w), bits 35 0 w)

def loadHbmRec (im : Image) (pl : Placed) (r : ImgRec) (s : State) : State :=
  let (g, o) := imgHbm im pl (recW r 0)
  writeHbm g o r.data false s

/-! ## Relocation (R264, Tables 9-6 and 9-7) -/

/-- The patched value of a word, or none where it breaks Table 9-6. `tile`: the patched tile, for kind 5. Kind 6 reads the whole of
[47:0] as the R16 offset of an image tile (log 18). -/
def patch (s : State) (im : Image) (pl : Placed) (kind pos : Nat) (tile : Option (Nat × Nat)) (v : Nat) : Option Nat :=
  let c := hbmQuadBytes s.fuses.variant
  let top := v / 2 ^ 48 * 2 ^ 48
  let q := bits 40 36 v
  let rest := bits 35 0 v
  let g := gOf im pl q
  let legal := bits 47 41 v == 0 && q < im.quadrants
  match kind with
  | 1 => if legal && rest < c then some (top + g * c + rest) else none
  | 2 => if legal && rest < 8 * 2 ^ 18 then some (top + 0x200000000000 + 8 * g * 0x40000 + rest) else none
  | 3 => if legal && rest < 8 * 2 ^ 16 then some (top + ctlWindow (8 * g + rest / 2 ^ 16) + rest % 2 ^ 16) else none
  | 4 =>
    if legal && rest < 8 * 2 ^ 16 then
      let k := sideOfQuad g (rest / 2 ^ 16)
      some (top + 0x300000000000 + k / 32 * 0x1000000 + 0x800000 + k % 32 * 0x10000 + rest % 2 ^ 16)
    else none
  | 5 =>
    match tile with
    | some (x, y) =>
      if bits 47 36 v == 0 && rest < 2 ^ 16 then
        let k := sideOfTile x y
        some (top + 0x300000000000 + k / 32 * 0x1000000 + 0x800000 + k % 32 * 0x10000 + rest)
      else none
    | none => none
  | 6 =>
    let o := v % 2 ^ 48
    if 0x100000000000 ≤ o && o < 0x100400000000 then
      let i := (o - 0x100000000000) / 16384
      if im.places.contains (i % 1024 / 256, i / 1024 / 128) then
        let (x, y) := placedTile pl (i % 1024) (i / 1024)
        some (top + 0x100000000000 + (y * 1024 + x) * 16384 + o % 16384)
      else none
    else none
  | 7 =>
    let x : Int := (bits (pos + 9) pos v : Nat) + 256 * pl.a
    let y : Int := (bits (pos + 25) (pos + 16) v : Nat) + 128 * pl.b
    if 38 < pos || x < 0 || 1024 ≤ x || y < 0 || 1024 ≤ y then none
    else some (v - bits (pos + 9) pos v * 2 ^ pos - bits (pos + 25) (pos + 16) v * 2 ^ (pos + 16)
      + x.toNat * 2 ^ pos + y.toNat * 2 ^ (pos + 16))
  | 8 => if v % 256 < im.quadrants then some (v - v % 256 + gOf im pl (v % 256)) else none
  | 9 => if legal && rest < 2 ^ 28 then some (top + 0x400000000000 + g * 0x10000000 + rest) else none
  | 10 =>
    let i := v / 2 ^ 48
    let peers := (getPart s pl.p).pattern.peersUsed
    if !im.localOnly && i < im.peers && 2 * i + 2 ≤ peers.length then some (v % 2 ^ 48 + ofLe (bytesAt peers (2 * i) 2) * 2 ^ 48)
    else none
  | 11 => some (v % 2 ^ 48 + s.links.chip.toNat * 2 ^ 48)
  | 12 => if legal && rest < 2 ^ 24 then some (top + 0x300000000000 + g / 4 * 0x1000000 + rest) else none
  | _ => none

/-- One word read, patched and written back; none when it cannot be patched. -/
def patchWord (s : State) (im : Image) (pl : Placed) (r : ImgRec) (tile : Option (Nat × Nat)) (v : W64) : Option W64 :=
  (patch s im pl (bits 7 0 (recW r 0)) (bits 21 16 (recW r 0)) tile v.toNat).map n64

def patchTile (im : Image) (pl : Placed) (r : ImgRec) (x y : Nat) (s : State) : Option State :=
  let o := recW r 2
  let t := getTile s (tileKey x y)
  (patchWord s im pl r (some (x, y)) (tileWindowWord 0 0 0 x y t o)).map fun v =>
    putTile s (tileKey x y) (loadTileWord x y o v t).1

/-- One relocation record, in a space that `spaces` lets it patch. -/
def relocate (im : Image) (pl : Placed) (spaces : Nat → Bool) (r : ImgRec) (s : State) : Option State :=
  let space := bits 10 8 (recW r 0)
  let w := recW r 1
  let o := recW r 2
  if !spaces space then some s
  else if (space ≠ 4 && o % 8 ≠ 0) || (bits 7 0 (recW r 0) = 5 && space ≠ 0) then none
  else match space with
  | 0 => (rectTiles pl w).foldl (fun (s : Option State) e => s.bind (patchTile im pl r e.1 e.2)) (some s)
  | 1 =>
    let k := sideOfQuad (gOf im pl (bits 4 0 w)) (bits 10 8 w)
    (patchWord s im pl r none (sideWindowWord (getSide s k) o)).map fun v => updSide s k (sideWindowPut false o v)
  | 2 =>
    let n := shuttleOfRec im pl w
    (patchWord s im pl r none (n64 (ofLe (localRead (getShuttle s n) o 8)))).map fun v =>
      updShuttle s n (localWrite o (leBytes 8 v.toNat) false)
  | 3 =>
    let (g, q) := imgHbm im pl o
    (patchWord s im pl r none (n64 (ofLe (hbmBytes (getHbm s g) q 8)))).map fun v => writeHbm g q (leBytes 8 v.toNat) false s
  | _ =>
    let n := shuttleOfRec im pl w
    let t := bits 19 16 w
    (patchWord s im pl r none (getThread (getShuttle s n) t).pc).map fun v => updThread s n t fun th => { th with pc := v }

/-- The init sections written and relocated: tiles and sides, shuttles and threads, HBM, as asked. The first relocation that fails
is named. -/
def writeImage (im : Image) (pl : Placed) (shuttles hbm : Bool) (s : State) : Except Nat Loading :=
  let l := im.tile.foldl (fun l r => loadTileRec pl r l) (s, true)
  let s := im.side.foldl (fun s r => loadSideRec im pl r s) l.1
  let s := if shuttles then im.threads.foldl (fun s r => loadThreadRec im pl r s) (im.shuttle.foldl (fun s r => loadShuttleRec im pl r s) s)
    else s
  let s := if hbm then im.hbm.foldl (fun s r => loadHbmRec im pl r s) s else s
  let spaces (k : Nat) : Bool := k < 2 || (shuttles && (k == 2 || k == 4)) || (hbm && k == 3)
  let rs := (List.range im.reloc.length).zip im.reloc
  rs.foldl (fun (l : Except Nat Loading) e =>
    match l with
    | .error i => .error i
    | .ok (s, ok) =>
      match relocate im pl spaces e.2 s with
      | some s => .ok (s, ok)
      | none => .error e.1) (.ok (s, l.2))

end Sys2Proof.Machine
end

