-- ==== Sys2Proof/Machine/Loader.lean ====
section
/-! DEFINITION. The loader: checks, deadlines, install and unload of a pattern, and regions that gate and ungate (09 R261 to R274,
R285, 13 R359). -/

namespace Sys2Proof.Machine

/-! ## Refusal codes (Table 9-8) -/

def codeBadImage : Nat := 0xD1080002
def codeDigestMismatch : Nat := 0xD1080003
def codeUnitMissing : Nat := 0xD1080004
def codeLaceMissing : Nat := 0xD1080005
def codePlacement : Nat := 0xD1080006
def codeResourceOver : Nat := 0xD1080007
def codeBadRelocation : Nat := 0xD1080008
def codeHoopPlan : Nat := 0xD1080009
def codeDeadlineStep : Nat := 0xD108000A
def codeDeadlinePhase : Nat := 0xD108000B
def codeHoldLimitShort : Nat := 0xD108000C
def codePlacementFixed : Nat := 0xD108000D
def codeInstallFailed : Nat := 0xD108000E
def codeNoPattern : Nat := 0xD1080010
def codeCounterExhausted : Nat := 0xD1080011

/-- A refusal (Table 9-9). -/
structure LoadRefusal where
  code     : Nat
  section_ : Nat := 0
  record   : Nat := 0
  detail   : Nat := 0
  computed : Nat := 0
  declared : Nat := 0
  deriving DecidableEq, Repr

def refusalBytes (r : LoadRefusal) : Bytes :=
  leBytes 8 (r.code + r.section_ * 2 ^ 32) ++ leBytes 8 (r.record + r.detail * 2 ^ 32) ++ leBytes 8 r.computed ++ leBytes 8 r.declared

/-! ## Steps 4 to 7 -/

/-- R262: the detail of the first unit that is missing, 0 when none is. Without a translation no g(q) names a quadrant's lacework. -/
def unitMissing (s : State) (p : Nat) (im : Image) (pl : Placed) (placed : Bool) : Nat :=
  let v := s.fuses.variant
  if placed && (List.range im.quadrants).any (fun q => bitAt q im.laceQuads && !(hasLacework v && decide (gOf im pl q < quadsOf v))) then 1
  else if (upPorts s p).length < im.minPorts then 2
  else if im.needsIngest && !(portsOfPart s p).any (fun k => 10 ≤ k && bitAt (k - 10) (ingestMask v)) then 3
  else if hbmQuadBytes v < im.hbmBytes then 4
  else 0

/-- R263: the segment holds the image a record names, which defines its function. -/
def laceRefHolds (s : State) (im : Image) (pl : Placed) (r : ImgRec) : Bool :=
  let g := getLace s (gOf im pl (bits 4 0 (recW r 0)))
  g.state == 2 && ofLe (bytesAt g.digest 0 8) == recW r 1 && (laceFunction g (bits 15 8 (recW r 0))).isSome

/-- An image address of kind `hbm` with `n` bytes after it lies in its quadrant. -/
def hbmAddrFits (s : State) (im : Image) (w n : Nat) : Bool :=
  bits 47 41 w == 0 && bits 40 36 w < im.quadrants && bits 35 0 w + n ≤ hbmQuadBytes s.fuses.variant

def boundaryOf (im : Image) (kind : Nat) : List ImgRec := im.boundary.filter fun r => bits 3 0 (recW r 0) = kind

def carriedLen (im : Image) : Nat := ((boundaryOf im 3).map fun r => recW r 2).sum

/-- Bytes of a boundary record: counter, lineage, carried regions, 8 knots of every tile, and the knots and tables of every
shuttle. The manual gives no layout (log 20). -/
def boundaryBytes (im : Image) : Nat := 56 + carriedLen im + im.quadrants * (32768 * 64 + 8 * 0x1D00)

/-- R266: the image copy, two boundary records and two checkpoint slots. -/
def reserveBytes (im : Image) : Nat :=
  let slot := ((boundaryOf im 4).map fun r => recW r 2).sum + boundaryBytes im + 56
  im.copyBytes + 2 * boundaryBytes im + 2 * slot

def tileRecFits (r : ImgRec) : Bool := bits 13 0 (recW r 1) + r.data.length ≤ 0x4000

def relocFits (s : State) (im : Image) (r : ImgRec) : Bool :=
  let w := recW r 1
  let o := recW r 2
  match bits 10 8 (recW r 0) with
  | 0 => rectReserved w && rectInside im.places w && o + 8 ≤ 0x4000
  | 1 => unitRecLegal im.quadrants w && o + 8 ≤ 0x10000
  | 2 => unitRecLegal im.quadrants w && o + 8 ≤ 0x40000
  | 3 => hbmAddrFits s im o 8
  | _ => unitRecLegal im.quadrants w

def boundaryFits (s : State) (im : Image) (r : ImgRec) : Bool :=
  match bits 3 0 (recW r 0) with
  | 2 => hbmAddrFits s im (recW r 1) 0 && hbmAddrFits s im (recW r 2) 0
  | 3 => recW r 1 + recW r 2 ≤ 0x40000
  | 4 => hbmAddrFits s im (recW r 1) (recW r 2)
  | _ => true

/-- At most 65,536 carried bytes of each shuttle (Table 9-13). -/
def carriedFits (im : Image) : Bool :=
  (boundaryOf im 3).all fun r =>
    (((boundaryOf im 3).filter fun q => bits 14 4 (recW q 0) = bits 14 4 (recW r 0)).map fun q => recW q 2).sum ≤ 65536

/-- Step 7: where a record leaves its space. -/
def resourceOver (s : State) (im : Image) : Option LoadRefusal :=
  let first (kind : Nat) (f : ImgRec → Bool) (rs : List ImgRec) : Option LoadRefusal :=
    (badIndex f rs).map fun i => { code := codeResourceOver, section_ := kind, record := i }
  (first 3 tileRecFits im.tile).orElse fun _ =>
  (first 4 (fun r => bits 31 16 (recW r 0) + r.data.length ≤ 0x10000) im.side).orElse fun _ =>
  (first 5 (fun r => bits 33 16 (recW r 0) + r.data.length ≤ 0x40000) im.shuttle).orElse fun _ =>
  (first 7 (fun r => hbmAddrFits s im (recW r 0) r.data.length) im.hbm).orElse fun _ =>
  (first 9 (relocFits s im) im.reloc).orElse fun _ =>
  (first 0x0B (boundaryFits s im) im.boundary).orElse fun _ =>
  if !carriedFits im || hbmQuadBytes s.fuses.variant < reserveBytes im + im.hbmBytes then some { code := codeResourceOver } else none

/-! ## Step 9: hoop tables (R115) -/

/-- Every valid entry k of a partition's tiles names a rectangle of the partition that holds the tile, and whose tiles all have it. -/
def hoopsAgree (s : State) (p : Nat) : Bool :=
  (tilesOfPart s p).all fun e =>
    (getTile s (tileKey e.1 e.2)).hoop.table.all fun h =>
      if !entryValid h.2 then true
      else
        let (hx, hy) := entryHead h.2
        let rows := bits 41 32 h.2.toNat + 1
        let cols := bits 57 48 h.2.toNat + 1
        decide (hx ≤ e.1) && decide (e.1 < hx + cols) && decide (hy ≤ e.2) && decide (e.2 < hy + rows)
          && (List.range rows).all fun j => (List.range cols).all fun i =>
            ownerOf s (quadOf (hx + i) (hy + j)) == p && decide (hx + i < 1024) && decide (hy + j < tileRows s.fuses.variant)
              && sGet 0 h.1 (getTile s (tileKey (hx + i) (hy + j))).hoop.table == h.2

/-! ## Deadlines (R269 to R271) -/

/-- The figures that deadlines rest on: beat floor in MHz, R_port, t_hop. -/
structure Figures where
  mhz  : Nat
  rate : Nat
  hop  : Nat
  deriving DecidableEq, Repr

/-- Beat in MHz of a code (R347). -/
def beatMHz (code : Nat) : Nat := 800 + 25 * code

def figuresOf (s : State) (p : Nat) : Figures :=
  let (r, h) := routeFigures s p
  ⟨beatMHz (getPart s p).active.floor.toNat, r, h⟩

/-- The common denominator of all times. -/
def denom (f : Figures) : Nat := f.mhz * 16 * max f.rate 1

/-- t_k of a phase, times the denominator. -/
def phaseTime (f : Figures) (r : ImgRec) : Nat :=
  let rate := max f.rate 1
  match bits 1 0 (recW r 0) with
  | 0 => (recW r 1 + bits 31 0 (recW r 2)) * 1000 * 16 * rate
  | 1 => recW r 1 * 10 * f.mhz * rate
  | _ => (recW r 1 + bits 31 0 (recW r 2) * f.hop * rate) * f.mhz * 16

/-- Sum over groups of the longest phase of each. -/
def groupTimes (f : Figures) : List ImgRec → Option (Nat × Nat) → Nat
  | [], none => 0
  | [], some (_, t) => t
  | r :: rs, none => groupTimes f rs (some (bits 15 8 (recW r 0), phaseTime f r))
  | r :: rs, some (g, t) =>
    if bits 15 8 (recW r 0) = g then groupTimes f rs (some (g, max t (phaseTime f r)))
    else t + groupTimes f rs (some (bits 15 8 (recW r 0), phaseTime f r))

def ceilDiv (a b : Nat) : Nat := (a + b - 1) / b

/-- T_wc (R269). -/
def worstCase (f : Figures) (im : Image) : Nat :=
  let points := im.sStep / 8192 + 1
  ceilDiv (groupTimes f im.phases none + points * 256 * 1000 * 16 * max f.rate 1 + 25000 * denom f) (denom f)

/-- R270 and R271: the first check that fails. -/
def deadlineRefusal (s : State) (p : Nat) (im : Image) : Option LoadRefusal :=
  let f := figuresOf s p
  let t := worstCase f im
  let limit := (getPart s p).hold.limit.toNat
  if im.budget ≠ 0 && im.budget < t then
    some { code := codeDeadlineStep, section_ := 0x0A, computed := t, declared := im.budget }
  else
    let ixs := (List.range im.phases.length).zip im.phases
    let late := ixs.find? fun e => bitAt 16 (recW e.2 0) && decide (recW e.2 3 * denom f < phaseTime f e.2)
    match late with
    | some (i, r) =>
      some { code := codeDeadlinePhase, section_ := 0x0A, record := i + 1, detail := i, computed := ceilDiv (phaseTime f r) (denom f)
             declared := recW r 3 }
    | none =>
      (ixs.find? fun e => bits 1 0 (recW e.2 0) = 0 && limit ≤ bits 63 32 (recW e.2 2)).map fun e =>
        { code := codeHoldLimitShort, section_ := 0x0A, record := e.1 + 1, detail := e.1, computed := bits 63 32 (recW e.2 2)
          declared := limit }

/-! ## Regions gate and ungate (R359) -/

/-- Regions of a partition, ascending quadrant and then ascending region number. -/
def regionsOfPart (s : State) (p : Nat) : List Nat :=
  (quadsOfPart s p).flatMap fun g =>
    (List.range 2).flatMap fun j => (List.range 4).map fun i =>
      g / 4 * 32 + (2 * (g % 4 / 2) + j) * 8 + 4 * (g % 2) + i

def setGate (r : Nat) (v : Byte) (s : State) : State := updRegion r (fun q => if q.state = 2 then q else { q with state := v }) s

/-- The next region that is still gated. -/
def nextGated (s : State) (p : Nat) : Option Nat := (regionsOfPart s p).find? fun r => (getRegion s r).state == 0

def nextOpen (s : State) (p : Nat) : Option Nat := (regionsOfPart s p).reverse.find? fun r => (getRegion s r).state == 1

/-- The partition leaves idle: its regions ungate and its beat is its floor (R347, R359). -/
def ungateAll (p : Nat) (s : State) : State :=
  let s := updPart s p fun q => { q with clock := { q.clock with beat := q.active.floor, pending := none } }
  (regionsOfPart s p).foldl (fun s r => setGate r 1 s) s

/-- A pending change is dropped when the partition enters idle (R353). -/
def dropChange (p : Nat) (s : State) : State :=
  let s := updPart s p fun q => { q with clock := { q.clock with pending := none, changeFrom := none } }
  updHold s p fun h => { h with change := false }

/-- The partition is idle (R359). -/
def partIdle (s : State) (p : Nat) : Bool := stepState s p == 0 || stepState s p == 7

/-! ## Install (R267, R285) -/

/-- The start of a pattern's stay: its own counters and records at their defaults (R68, R164, R183, R267). -/
def installTile (t : Tile) : Tile :=
  { t with fault := {}, counts := {}
           num := { t.num with t2Invalid := 0, nanNarrow := 0, mscaleRange := 0, scaleNan := 0, emptyRow := 0, below := 0, above := 0 } }

/-- The hoop and issue fields that stand from the install on (Tables 3-15 and 4-5). -/
def placeTile (entry : Nat) (x y : Nat) (t : Tile) : Tile :=
  { t with hoop := hoopFor (BitVec.ofNat 10 x) (BitVec.ofNat 10 y) 0 { t.hoop with next := none }
           issue := { t.issue with nextAddr := BitVec.ofNat 7 entry, half := bitAt 6 entry } }

def onTiles (p : Nat) (f : Nat → Nat → Tile → Tile) (s : State) : State :=
  (tilesOfPart s p).foldl (fun s e => putTile s (tileKey e.1 e.2) (f e.1 e.2 (getTile s (tileKey e.1 e.2)))) s

/-- Entries of 0x8410+p and 0x8010+p at their defaults, but for those that persist (R285). -/
def defaultStep (q : StepSt) : StepSt :=
  { retryLimit := q.retryLimit, interval := q.interval, timeoutNs := q.timeoutNs }

def defaultPattern (q : Pattern) : Pattern :=
  { expected := q.expected, seed := q.seed }

/-- The hold of a partition whose state is written anew. -/
def resetHold (h : Hold) : Hold :=
  { h with haltAt := none, frozen := false, noMore := false, stepRuns := false, inRun := false, run := 0, counted := 0, hist := [], stampAt := none }

/-- The hold of a partition with a new pattern: held W-beats are counted since install, and the S-beat count starts (log 106). -/
def installHold (h : Hold) : Hold := { resetHold h with held := 0, sBeat := 0 }

/-- The seed in force (R268). -/
def seedFor (q : Pattern) (digest : Bytes) : W64 := if q.seed ≠ 0 then q.seed else n64 (ofBe (bytesAt digest 0 8))

/-- R304: a chip is reachable again when a pattern is installed; flows start anew (R301). -/
def freshRoute (r : Route) : Route := { r with unreach := [], empty := [], flows := [], retained := freshAll r.retained }
where
  /-- Timeouts count anew. -/
  freshAll (ts : List TxPacket) : List TxPacket := ts.map fun t => { t with tries := 0 }

def shuttlesOfPart (s : State) (p : Nat) : List Nat := (quadsOfPart s p).flatMap fun g => (List.range 8).map fun k => 8 * g + k

def onShuttles (p : Nat) (f : Shuttle → Shuttle) (s : State) : State := (shuttlesOfPart s p).foldl (fun s n => updShuttle s n f) s

/-- Every thread stops (Table 8-2a); requests in flight end with `aborted` (Table 8-3). -/
def haltThreads (h : Shuttle) : Shuttle :=
  { h with running := none
           threads := sMap {} (fun th => { th with state := 5, waiting := .none }) h.threads
           tags := sMap {} (fun g => if g.valid then { last := 0x17 } else g) h.tags }

/-- Step 13 from the written state on. No thread of an earlier pattern runs on. -/
def finishInstall (p : Nat) (im : Image) (pl : Placed) (image digest : Bytes) (t : Nat) (s : State) : State :=
  let s := onTiles p (fun x y t => placeTile im.entryAddr x y (installTile t)) s
  let s := onShuttles p haltThreads s
  let s := trackRoutes p (updRoute s p freshRoute)
  updPart s p fun q => { q with
    hold := installHold q.hold
    debugging := { q.debugging with heldWBeats := 0, firstFault := [] }
    step := { defaultStep q.step with state := 1, lineage := sha384 im.hbmInit }
    pattern := { defaultPattern q.pattern with
      state := 2, digest := digest, worstNs := n64 t, installed := image, peersUsed := q.pattern.peersUsed, a := pl.a, b := pl.b
      seedInForce := seedFor q.pattern digest } }

/-- Table 9-8, steps 2 to 12: the refusal, or the image and its place with the state in which the image is written. -/
def loadChecks (p : Nat) (image : Bytes) (s : State) : Except LoadRefusal (Image × Placed × Loading) :=
  let digest := sha384 image
  let q := (getPart s p).pattern
  match parseImage image with
  | .error (k, i) => .error { code := codeBadImage, section_ := k, record := i }
  | .ok im =>
    let place := translation s p im
    let pl : Placed := ⟨p, (place.map (·.1)).getD 0, (place.map (·.2)).getD 0⟩
    let missing := unitMissing s p im pl place.isSome
    let refs := badIndex (laceRefHolds s im pl) im.laceRefs
    if !allZero q.expected && q.expected ≠ digest then .error { code := codeDigestMismatch }
    else if missing ≠ 0 then .error { code := codeUnitMissing, section_ := 1, detail := missing }
    else if place.isSome && refs.isSome then .error { code := codeLaceMissing, section_ := 8, record := refs.getD 0 }
    else if place.isNone || !placementLegal s p im pl.a pl.b then .error { code := codePlacement, section_ := 2 }
    else match resourceOver s im with
    | some r => .error r
    | none =>
      match writeImage im pl true true (updPattern s p fun q => { q with peersUsed := q.peers }) with
      | .error i => .error { code := codeBadRelocation, section_ := 9, record := i }
      | .ok l =>
        if !hoopsAgree l.1 p then .error { code := codeHoopPlan, section_ := 3 }
        else match deadlineRefusal s p im with
        | some r => .error r
        | none => .ok (im, pl, l)

/-- The partition holds a quadrant that the start found unavailable (R361). -/
def quadMissing (s : State) (p : Nat) : Bool :=
  (quadsOfPart s p).any fun g => bitAt (g % 4) (sGet {} (g / 4) s.pack.start.dies : Die).unavailable.toNat

/-- A load has ended: its event (Table 15-11). -/
def loadDone (p ix code : Nat) (s : State) : State := assertEvent (srcPart p 8) (n64 (code + ix * 2 ^ 32)) s

/-- The effect of `pattern.command` 1 (R265 to R267). `writeOk`: no write of the install fails. -/
def loadPattern (p : Nat) (writeOk : Bool) (s : State) : Nat × State :=
  let refuse (r : LoadRefusal) (s : State) : Nat × State :=
    (r.code, loadDone p (0x8010 + p) r.code (updPattern s p fun q => { q with refusal := refusalBytes r }))
  let st := stepState s p
  if !(st == 0 || st == 1 || st == 4 || st == 6) || quadMissing s p then refuse { code := codePartitionBusy } s
  else
    let image := (getPart s p).pattern.image
    match loadChecks p image s with
    | .error r => refuse r s
    | .ok (im, pl, s', ok) =>
      if !ok || !writeOk then
        let s := updStep s' p fun q => { defaultStep q with state := 0 }
        refuse { code := codeInstallFailed } (updPattern s p defaultPattern)
      else
        let digest := sha384 image
        let s := finishInstall p im pl image digest (worstCase (figuresOf s p) im) (ungateAll p s')
        let s := auditEvent 3 p kindLoad (0x8010 + p) 2 0 image s
        (0, loadDone p (0x8010 + p) 0 s)

/-- The effect of `pattern.command` 2. -/
def unloadPattern (p : Nat) (s : State) : Nat × State :=
  let st := stepState s p
  if !(st == 1 || st == 4 || st == 6) then (codePartitionBusy, s)
  else
    let s := updStep s p defaultStep
    let s := dropChange p (updHold (onShuttles p haltThreads s) p resetHold)
    (0, updPattern s p defaultPattern)

def patternCommand (p value : Nat) (writeOk : Bool) (s : State) : Nat × State :=
  match value with
  | 1 => loadPattern p writeOk s
  | 2 => unloadPattern p s
  | _ => (codeValueRange, s)

/-! ## Commands -/

def execPatternLoad (r : Role) (p : PartNo) (writeOk : Bool) (s : State) : Host.Outcome State Fault Refusal :=
  commandBy r (0x8010 + p.val) 2 1 (patternCommand p.val 1 writeOk) s

def execPatternUnload (r : Role) (p : PartNo) (s : State) : Host.Outcome State Fault Refusal :=
  commandBy r (0x8010 + p.val) 2 2 (patternCommand p.val 2 true) s

/-- The next region of a configured partition ungates. -/
def execRegionUngate (p : PartNo) (s : State) : Host.Outcome State Fault Refusal :=
  .next (match nextGated s p.val with
    | some r => if p.val = 0 then s else setGate r 1 s
    | none => s)

/-- The next region of an idle partition gates, in the reverse order. -/
def execRegionGate (p : PartNo) (s : State) : Host.Outcome State Fault Refusal :=
  .next (match nextOpen s p.val with
    | some r => if p.val ≠ 0 && partIdle s p.val then setGate r 0 s else s
    | none => s)

end Sys2Proof.Machine
end

