-- ==== Sys2Proof/Machine/LaceLoad.lean ====
section
/-! DEFINITION. Lace images: loading, emptying, captures and the fabric's ticks (12 R323, R331 to R340). -/

namespace Sys2Proof.Machine

/-! ## Refusal codes (Table 12-8) -/

def codeLaceBusy : Nat := 0xD1060001
def codeLaceHeader : Nat := 0xD1060002
def codeLaceForeign : Nat := 0xD1060003
def codeLaceFmax : Nat := 0xD1060004
def codeLaceInUse : Nat := 0xD1060005
def codeLaceShort : Nat := 0xD1060006
def codeLaceSignature : Nat := 0xD1060007
def codeLaceFrame : Nat := 0xD1060008
def codeLaceCrc : Nat := 0xD1060009

/-! ## Header and functions (Tables 12-5 and 12-6) -/

def laceHeadWord (b : Bytes) (i : Nat) : Nat := ofLe (bytesAt b (8 * i) 8)
def laceRatioOf (b : Bytes) : Nat := bits 2 0 (laceHeadWord b 2)
def laceSigned (b : Bytes) : Bool := bitAt 3 (laceHeadWord b 2)
def laceFnCount (b : Bytes) : Nat := bits 15 8 (laceHeadWord b 2)
def laceFrames (b : Bytes) : Nat := bits 31 16 (laceHeadWord b 2)
def laceFmax (b : Bytes) : Nat := bits 63 32 (laceHeadWord b 2)
def laceLength (b : Bytes) : Nat := laceHeadWord b 3

/-- Step 2. -/
def laceHeadLegal (b : Bytes) : Bool :=
  32 ≤ b.length && ofLe (bytesAt b 0 4) == 0x4543414C && ofLe (bytesAt b 4 2) == 1 && ofLe (bytesAt b 6 2) == 0
    && bits 63 56 (laceHeadWord b 1) == 0 && bits 7 4 (laceHeadWord b 2) == 0

/-- Step 3. -/
def laceNative (b : Bytes) : Bool :=
  let w := laceHeadWord b 1
  bits 15 0 w == 0x6C08 && bits 31 16 w == 512 && bits 47 32 w == 128 && bits 55 48 w == 1

def laceEntry (b : Bytes) (i : Nat) : Nat := ofLe (bytesAt b (32 + 8 * i) 8)

/-- R332. -/
def laceEntryLegal (ratio e : Nat) : Bool :=
  let d := bits 21 16 e
  let l := bits 30 24 e
  bits 7 0 e ≠ 0 && bits 9 8 e ≠ 0 && bits 15 10 e == 0 && bits 23 22 e == 0 && bits 63 31 e == 0
    && 1 ≤ d && l == ratio * (d + 1) && l % 2 == 0 && l ≤ 64

/-- Step 4, as far as the staged bytes reach: the entries that are there. -/
def laceShapeLegal (b : Bytes) : Bool :=
  let r := laceRatioOf b
  let n := laceFnCount b
  let es := (List.range (min n ((b.length - 32) / 8))).map (laceEntry b)
  2 ≤ r && r ≤ 4 && laceFrames b ≤ 512 && laceLength b == 32 + 8 * n + 4112 * laceFrames b + 96 * b2n (laceSigned b)
    && es.all (laceEntryLegal r) && (es.map (bits 7 0)).eraseDups.length == es.length

/-- Bytes that the digest covers (R335). -/
def laceBody (b : Bytes) : Bytes := b.take (laceLength b - 96 * b2n (laceSigned b))

/-- The signature verifies under a registered key (R335, R381). -/
def laceSigOk (s : State) (b : Bytes) : Bool :=
  let sig := bytesAt b (laceLength b - 96) 96
  (List.range 8).any fun i =>
    let key := fixedBytes 97 (sGet [] i s.sec.roles.laceKeys)
    !allZero key && ecdsaOk key (sha384 (laceBody b)) sig

/-! ## Frames (Table 12-7) -/

def frameAt (b : Bytes) (i : Nat) : Bytes := bytesAt b (32 + 8 * laceFnCount b + 4112 * i) 4112

def frameCells (f : Bytes) : List (Nat × BitVec 256) :=
  (List.range 128).map fun r => (r, BitVec.ofNat 256 (ofLe (bytesAt f (8 + 32 * r) 32)))

/-- Step 10: each frame is written once it has passed. -/
def loadFrames (b : Bytes) : Nat → Nat → Option Nat → LaceSeg → Except (Nat × Nat) LaceSeg
  | 0, _, _, g => .ok g
  | n + 1, i, last, g =>
    let f := frameAt b i
    let c := ofLe (bytesAt f 0 2)
    let ordered := decide (c < 512) && (match last with
      | some l => decide (l < c)
      | none => true)
    let legal := ordered && allZero (bytesAt f 2 6) && allZero (bytesAt f 4108 4)
      && (frameCells f).all fun e => cellLegal c e.2.toNat
    if !legal then .error (codeLaceFrame, i)
    else if (crc32 (f.take 4104)).toNat ≠ ofLe (bytesAt f 4104 4) then .error (codeLaceCrc, i)
    else loadFrames b n (i + 1) (some c) { g with cells := (frameCells f).foldl (fun m e => sPut 0 (cellKey c e.1) e.2 m) g.cells }

/-! ## Loading (R336) -/

/-- States in which a segment may be loaded or emptied (step 1). -/
def laceFree (s : State) (g : Nat) : Bool :=
  let p := ownerOf s g
  let st := stepState s p
  p == 0 || st == 0 || st == 1 || st == 4 || st == 6

/-- The beat code against which `fmax_khz` is checked (step 5). -/
def laceCeiling (s : State) (g : Nat) : Nat :=
  let p := ownerOf s g
  if p = 0 then 24 else (getPart s p).active.ceiling.toNat

/-- A fabric clock of a beat code and ratio stays within `fmax_khz`. -/
def withinFmax (code ratio fmaxKhz : Nat) : Bool := beatMHz code * 1000 ≤ fmaxKhz * ratio

/-- Step 6: the installed pattern's records for g name this digest. -/
def laceKept (s : State) (g : Nat) (digest : Bytes) : Bool :=
  let p := ownerOf s g
  match (if p = 0 || (getPart s p).pattern.state ≠ 2 then none else installedImage s p) with
  | none => true
  | some im =>
    let q := (getPart s p).pattern
    im.laceRefs.all fun r => gOf im ⟨p, q.a, q.b⟩ (bits 4 0 (recW r 0)) ≠ g || ofLe (bytesAt digest 0 8) = recW r 1

/-- Table 12-8: the code, the frame index, and the segment afterwards. -/
def loadSegment (s : State) (k : Nat) (b : Bytes) (g : LaceSeg) : Nat × Nat × LaceSeg :=
  let digest := sha384 (laceBody b)
  if !laceFree s k || g.bypassOnly then (codeLaceBusy, 0, g)
  else if !laceHeadLegal b then (codeLaceHeader, 0, g)
  else if !laceNative b then (codeLaceForeign, 0, g)
  else if !laceShapeLegal b then (codeLaceHeader, 0, g)
  else if !withinFmax (laceCeiling s k) (laceRatioOf b) (laceFmax b) then (codeLaceFmax, 0, g)
  else if !laceKept s k digest then (codeLaceInUse, 0, g)
  else if b.length < laceLength b then (codeLaceShort, 0, emptySegment g)
  else if (if laceSigned b then !laceSigOk s b else s.sec.caerec.approved) then (codeLaceSignature, 0, g)
  else
    let e := { emptySegment g with state := 1 }
    match loadFrames b (laceFrames b) 0 none e with
    | .error (code, i) => (code, i, emptySegment g)
    | .ok v =>
      if !noCycle v.cells then (codeLaceFrame, 0, emptySegment g)
      else (0, 0, initFlipFlops { v with
        state := 2, ratio := BitVec.ofNat 3 (laceRatioOf b), signed := laceSigned b, header := b.take 32
        table := (b.drop 32).take (8 * laceFnCount b), digest := digest, fmaxKhz := BitVec.ofNat 32 (laceFmax b) })

/-- The output queues of a segment's lanes, and words that wait for it, go with its image. -/
def clearLanes (g : Nat) (s : State) : State :=
  (sidesOfQuad g).foldl (fun s k => updSide s k fun sd =>
    (List.range 16).foldl (fun sd l => putLane l { getLane sd l with toGrid := [], toSide := [] } sd) sd) s

/-- `lace.command` 1. Every load, accepted or refused, is audited. -/
def laceLoad (r : Role) (g : Nat) (s : State) : Nat × State :=
  let v := getLace s g
  let (code, frame, v') := loadSegment s g v.staged v
  let refusal := if code = 0 then [] else leBytes 8 code ++ leBytes 8 frame
  let s := putLace s g { v' with refusal := if code = 0 then v'.refusal else refusal }
  let s := if v'.state = v.state && v'.digest = v.digest && code ≠ 0 then s else clearLanes g s
  let s := auditEvent (roleCode r) (rolePart r) kindLoad (0x6010 + g) 2 code v.staged s
  let p := ownerOf s g
  (code, if p = 0 then s else loadDone p (0x6010 + g) code s)

/-- The segment of a quadrant emptied (R338, R371). -/
def emptyLace (g : Nat) (s : State) : State := clearLanes g (updLace s g emptySegment)

/-- `lace.command` 2. -/
def laceEmptyCmd (g : Nat) (s : State) : Nat × State := if laceFree s g then (0, emptyLace g s) else (codeLaceBusy, s)

/-- A write of `lace.command`. -/
def laceCommand (r : Role) (g value : Nat) (s : State) : Nat × State :=
  let s := updLace s g fun v => { v with command := BitVec.ofNat 8 value }
  match value with
  | 1 => laceLoad r g s
  | 2 => laceEmptyCmd g s
  | 3 => (0, requestCapture g s)
  | _ => (codeValueRange, s)

/-- R331 for every loaded segment of a partition. -/
def resetLaces (p : Nat) (s : State) : State :=
  (quadsOfPart s p).foldl (fun s g =>
    if (getLace s g).state = 2 then clearLanes g (updLace s g clearForStep) else s) s

/-! ## The tick (R322, R323) -/

/-- The fabric of a segment ticks in this W-beat of its partition; that of an unassigned quadrant runs on the idle synthesiser. -/
def tickDue (s : State) (g : Nat) : Bool :=
  let v := getLace s g
  let p := ownerOf s g
  let w := (getPart s p).hold.wBeat
  v.state == 2 && v.ratio ≠ 0 && (p == 0 || (w % v.ratio.toNat == 0 && v.ticked ≠ some w))

/-- Side and lane of a row of a segment. -/
def sideOfRow (g r : Nat) : Nat := sideOfQuad g (r / 16)

/-- `dlv_stopped` and `drn_stopped` (R329). -/
def rowStopped (s : State) (g dir r : Nat) : Bool :=
  let ln := getLane (getSide s (sideOfRow g r)) (r % 16)
  if dir = 0 then laneBlocked ln || !ln.toGrid.isEmpty else ln.stopped || !ln.toSide.isEmpty

def fabricTick (g : Nat) (s : State) : State :=
  let p := ownerOf s g
  let w := (getPart s p).hold.wBeat
  let v := getLace s g
  let v' := tickSegment w (rowStopped s g) (fun r => sideOfRow g r % 2) v
  let s := putLace s g v'
  if v'.drops = v.drops then s else assertEvent (srcQuad g 6) (laceCounts v') s

/-! ## Commands -/

def execLaceLoad (r : Role) (g : QuadNo) (s : State) : Host.Outcome State Fault Refusal :=
  commandBy r (0x6010 + g.val) 2 1 (laceCommand r g.val 1) s

def execLaceEmpty (r : Role) (g : QuadNo) (s : State) : Host.Outcome State Fault Refusal :=
  commandBy r (0x6010 + g.val) 2 2 (laceCommand r g.val 2) s

/-- A capture request by `lace_ctl` (R339) or `lace.command` 3. -/
def execLaceCapture (by_ : Requester) (g : QuadNo) (s : State) : Host.Outcome State Fault Refusal :=
  .next (if hasLacework s.fuses.variant && decide (g.val < quadsOf s.fuses.variant) && mayReach s (.lace g.val 0x300008) by_
      && mayCapture s by_ then
    requestCapture g.val (updLace s g.val fun v => { v with ctl := 1 })
  else s)

def execFabricTick (g : QuadNo) (s : State) : Host.Outcome State Fault Refusal :=
  .next (if tickDue s g.val then fabricTick g.val s else s)

end Sys2Proof.Machine
end

