-- ==== Sys2Proof/Machine/SideCommands.lean ====
section
/-! DEFINITION. The commands of stream engine sides and of the tile window (07 R187 to R199, 02 R64 to R67). -/

namespace Sys2Proof.Machine

/-! ## What a requester is told (R35, R66, R67, Table 14-4) -/

/-- Completion status codes of PCI Express (log 21). -/
def pcieUnsupported : Nat := 1
def pcieAbort : Nat := 4

/-- A status of Table 8-3 as the requester's own protocol says it. -/
def statusTo (by_ : Requester) (st : Nat) : Nat :=
  match by_ with
  | .host _ => if st = stDone || st = stPoisoned then 0 else if st = stUnmapped then pcieUnsupported else pcieAbort
  | .dxp _ =>
    if st = stDone || st = stPoisoned then 0
    else if st = stWall then codeRoleRefused
    else if st = stUnmapped then codeUnmapped
    else if st = stMisaligned then codeMisaligned
    else if st = stTileBusy then codeTileBusy
    else codeRangeInvalid
  | _ => st

/-! ## Tile windows (R64 to R67) -/

def tileOffset (x y o : Nat) : Nat := 0x100000000000 + tileKey x y * 16384 + o

/-- A read of a bank of an executing tile, which waits for a free beat (R66). -/
def waitsForBank (s : State) (by_ : Requester) (o n : Nat) : Option (Nat × Nat × Nat) :=
  match regionFor s by_ o with
  | .tile x y off =>
    let p := ownerOf s (quadOf x y)
    if off < 0x2800 && p ≠ 0 && tilesExecute (getPart s p).hold && !tileGated s x y && !misaligned64 o n
        && mayReach s (.tile x y off) by_ then some (x, y, off)
    else none
  | _ => none

/-- The read enters the tile's list. -/
def queueRead (by_ : Requester) (tag : Option Nat) (x y off n : Nat) (s : State) : State :=
  let t := getTile s (tileKey x y)
  let w := (getPart s (ownerOf s (quadOf x y))).hold.wBeat
  putTile s (tileKey x y) { t with reads := t.reads ++
    [{ by_ := by_, tag := tag, offset := BitVec.ofNat 14 off, size := n, since := w, data := none }] }

def readTileWindow (by_ : Requester) (x y off n : Nat) (s : State) : State :=
  let o := tileOffset x y off
  match waitsForBank s by_ o n with
  | some (x, y, off) => queueRead by_ none x y off n s
  | none =>
    let (a, s) := readOffset by_ o n .clean s
    answer (statusTo by_ a.status) a.data s

/-- The first read of a tile that has waited 4,096 W-beats (R66). -/
def lateRead (s : State) (x y : Nat) : Option (Nat × WindowRead) :=
  let t := getTile s (tileKey x y)
  let w := (getPart s (ownerOf s (quadOf x y))).hold.wBeat
  (((List.range t.reads.length).zip t.reads).find? fun e => e.2.data.isNone && decide (e.2.since + 4096 ≤ w))

/-- It completes without data: a requester other than a tag learns it now. -/
def timeoutRead (x y : Nat) (s : State) : State :=
  match lateRead s x y with
  | none => s
  | some (i, r) =>
    let t := getTile s (tileKey x y)
    let t := { t with counts := { t.counts with timeouts := satAdd 16 t.counts.timeouts 1 } }
    if r.tag.isSome then putTile s (tileKey x y) { t with reads := setAt i { r with data := some [] } t.reads }
    else answer (statusTo r.by_ stTileBusy) [] (putTile s (tileKey x y) { t with reads := dropAt i t.reads })

/-- A ring of the doorbell that no write of this file can reach. -/
def noBell : Bell := fun _ _ s => s

def writeTileWindow (by_ : Requester) (x y off : Nat) (data : Bytes) (s : State) : State :=
  let (a, s) := writeOffset noBell by_ (tileOffset x y off) data false s
  answer (statusTo by_ a.status) [] s

/-! ## Descriptors and triggers (R191, R192, R196) -/

/-- A trigger written by a shuttle, the loader or the step service (R191). -/
def writeTrigger (by_ : Requester) (k : Nat) (v : W64) (s : State) : State :=
  if decide (k / 32 < diesOf s.fuses.variant) && (isShuttle by_ || isService s by_) then
    if mayReach s (.sideWin k 0x2000) by_ then answer stDone [] (updSide s k (sideWindowPut true 0x2000 v))
    else answer (statusTo by_ stWall) [] (countWall by_ s)
  else s

/-- A descriptor enters a slot, with the status it fails with (R192). -/
def placeDescriptor (k i : Nat) (d : DescSlot) (failed : Nat) (s : State) : State :=
  let d := if failed = 0 then d else { d with finished := some (BitVec.ofNat 8 failed) }
  updSide s k fun sd => { sd with slots := sPut {} i d sd.slots }

/-- A stop at the wall counts (R374). -/
def countFailed (k failed : Nat) (s : State) : State :=
  if failed = 4 then
    updPart s (ownerOf s (quadOfSide k)) fun q => { q with wallStops := q.wallStops + 1 }
  else s

/-- SIDE_ACCEPT_DESCRIPTOR: the oldest of what has reached the side. A submission that finds no slot is refused; a trigger waits. -/
def acceptNext (k : Nat) (s : State) : State :=
  let sd := getSide s k
  match sd.inbox with
  | [] => s
  | .desc w0 w1 w2 w3 n g :: rest =>
    let s := putSide s k (unstall { sd with inbox := rest })
    (match freeSlot sd with
    | none => answerTag n.toNat g.toNat (BitVec.ofNat 8 stNoSlot) [] false s
    | some i =>
      let d : DescSlot := { active := true, w0 := w0, w1 := w1, w2 := w2, w3 := w3 }
      let failed := checkDescriptor s k d
      answerTag n.toNat g.toNat 0 [] false (countFailed k failed (placeDescriptor k i d failed s)))
  | .trigger v :: rest =>
    (match freeSlot sd with
    | none => s
    | some i =>
      let (d, bad) := triggerDescriptor sd v
      let s := putSide s k (unstall { sd with inbox := rest })
      let failed := if bad then 6 else checkDescriptor s k d
      countFailed k failed (placeDescriptor k i d failed s))

/-! ## HBM accesses of a side (R188, R189) -/

def accessDone (k : Nat) (a : HbmAccess) (o : SectorOutcome) (s : State) : State :=
  match a with
  | .writeBuffer => writeBufferLands k (match (getSide s k).writes with
    | b :: _ => strike b.offset o s
    | [] => s)
  | .slotWord i n =>
    let d := sGet {} i.val (getSide s k).slots
    if !d.active || d.finished.isSome then s
    else if dKind d = 1 then fetchRead k i.val n o s
    else if dKind d = 3 then copySector k i.val n o s
    else s

/-! ## The light path (R198, R199) -/

/-- The side whose light path serves an access of shuttle n at an offset. -/
def lightSide (s : State) (n o : Nat) : Option Nat :=
  match classify s.fuses.variant o with
  | .hbm g _ => if g = n / 8 then some (sideOfQuad g (n % 8)) else none
  | .tile x y _ => if quadOf x y = n / 8 then some (sideOfTile x y) else none
  | _ => none

def freeLight (sd : Side) : Option Nat := (List.range 24).find? fun i => !(sGet {} i sd.light : LightSlot).active

def tagWrites (g : Tag) : Bool :=
  match g.kind with
  | some (.store _ _) => true
  | some (.put _ _) => true
  | _ => false

/-- A request leaves through a free light-path slot, or waits in the shuttle (R198). A read of a bank of an executing tile enters
the tile's list (R66). -/
def lightIssue (n t : Nat) (s : State) : State :=
  let g : Tag := sGet {} t (getShuttle s n).tags
  let o := bits 47 0 g.address.toNat
  match lightSide s n o with
  | none => s
  | some k =>
    match freeLight (getSide s k) with
    | none => s
    | some i =>
      let sl : LightSlot := { active := true, offset := BitVec.ofNat 48 o, size := g.size, write := tagWrites g
                              thread := BitVec.ofNat 12 (16 * n + g.thread.toNat), tag := BitVec.ofNat 6 t }
      let s := updSide s k fun sd => { sd with light := sPut {} i sl sd.light }
      let s := updShuttle s n fun h => { h with tags := sPut {} t { g with sent := true } h.tags }
      let by_ : Requester := .shuttle (Fin.ofNat 256 n) (Fin.ofNat 16 g.thread.toNat)
      match (if tagWrites g then none else waitsForBank s by_ o (2 ^ g.size.toNat)) with
      | some (x, y, off) => queueRead by_ (some (n * 48 + t)) x y off (2 ^ g.size.toNat) s
      | none => s

/-- No request of the same thread to the same 64-byte block was issued before (R225). -/
def inOrder (h : Shuttle) (t : Nat) : Bool :=
  let g : Tag := sGet {} t h.tags
  (List.range 48).all fun u =>
    let e : Tag := sGet {} u h.tags
    !(e.valid && e.reply.isNone && e.thread == g.thread && e.address.toNat / 64 == g.address.toNat / 64 && e.order < g.order)

/-- Accesses that wait for a light-path slot of side k take it, oldest of the lowest shuttle first (log 13). -/
def admitLight (k : Nat) (s : State) : State :=
  let waiting : List (Nat × Nat × Nat) := (List.range 8).flatMap fun j =>
    let n := 8 * quadOfSide k + j
    (List.range 48).filterMap fun t =>
      let g : Tag := sGet {} t (getShuttle s n).tags
      if g.valid && g.light && !g.sent && g.reply.isNone && lightSide s n (bits 47 0 g.address.toNat) == some k then some (n, t, g.order) else none
  match waiting with
  | [] => s
  | w :: r =>
    let (n, t, _) := r.foldl (fun (a : Nat × Nat × Nat) e => if e.1 = a.1 && e.2.2 < a.2.2 then e else a) w
    lightIssue n t s

/-- A sector that a write touches is poisoned (R199). -/
def wroteIntoPoison (s : State) (o n : Nat) : Bool :=
  match classify s.fuses.variant o with
  | .hbm g off => (List.range ((off + n + 31) / 32 - off / 32)).any fun i => sGet false (off / 32 + i) (getHbm s g).poison
  | _ => false

/-- A shuttle's access at a package offset: status in the order of R199, data and poison. -/
def shuttleAccess (bell : Bell) (n t : Nat) (o size : Nat) (write : Option (Bytes × Bool)) (out : SectorOutcome) (s : State) : Access × State :=
  let by_ : Requester := .shuttle (Fin.ofNat 256 n) (Fin.ofNat 16 t)
  let r := regionFor s by_ o
  let skew := o % size ≠ 0 || (isWindow r && misaligned64 o size)
  if r ≠ .unmapped && !mayReach s r by_ then (⟨stWall, [], false⟩, countWall by_ s)
  else if skew then (⟨stMisaligned, [], false⟩, s)
  else
    match write with
    | none => readOffset by_ o size out s
    | some (data, poison) =>
      let (a, s) := writeOffset bell by_ o data poison (strike o out s)
      (if a.status = stDone && wroteIntoPoison s o size then { a with status := stPoisoned } else a, s)

/-- The bank read of a tag has been served: its data, none while it waits. -/
def servedRead (s : State) (n t o : Nat) : Option (Option Bytes) :=
  match classify s.fuses.variant o with
  | .tile x y _ => ((getTile s (tileKey x y)).reads.find? fun r => r.tag == some (n * 48 + t)).map (·.data)
  | _ => none

def dropRead (n t o : Nat) (s : State) : State :=
  match classify s.fuses.variant o with
  | .tile x y _ =>
    let k := tileKey x y
    putTile s k { getTile s k with reads := (getTile s k).reads.filter fun r => r.tag ≠ some (n * 48 + t) }
  | _ => s

/-- LIGHT_PATH_COMPLETE: the access is made, its slot frees and the tag has its answer. -/
def lightComplete (k i : Nat) (out : SectorOutcome) (s : State) : State :=
  let sl : LightSlot := sGet {} i (getSide s k).light
  let n := sl.thread.toNat / 16
  let t := sl.tag.toNat
  let g : Tag := sGet {} t (getShuttle s n).tags
  let o := sl.offset.toNat
  let size := 2 ^ sl.size.toNat
  let finish (a : Access) (s : State) : State :=
    let s := updSide s k fun sd => { sd with light := sPut {} i {} sd.light }
    admitLight k (answerTag n t (BitVec.ofNat 8 a.status) a.data a.poison s)
  if !sl.active || !inOrder (getShuttle s n) t then s
  else
    match servedRead s n t o with
    | some none => s
    | some (some d) =>
      finish (if d.isEmpty then ⟨stTileBusy, [], false⟩ else ⟨stDone, d, false⟩) (dropRead n t o s)
    | none =>
      let w := match g.kind with
        | some (.store data p) => some (data, p)
        | some (.put data p) => some (data, p)
        | _ => none
      let (a, s) := shuttleAccess noBell n (sl.thread.toNat % 16) o size w out s
      finish a s

/-! ## Commands -/

def execTileWindowRead (by_ : Requester) (a : TileAt) (o : BitVec 14) (n : Nat) (s : State) : Host.Outcome State Fault Refusal :=
  .next (readTileWindow by_ a.x.toNat a.y.toNat o.toNat n s)

def execTileWindowReadTimeout (a : TileAt) (s : State) : Host.Outcome State Fault Refusal :=
  .next (timeoutRead a.x.toNat a.y.toNat s)

def execTileWindowWrite (by_ : Requester) (a : TileAt) (o : BitVec 14) (d : Bytes) (s : State) : Host.Outcome State Fault Refusal :=
  .next (writeTileWindow by_ a.x.toNat a.y.toNat o.toNat d s)

def execTriggerWrite (by_ : Requester) (die : DieNo) (side : SideNo) (v : W64) (s : State) : Host.Outcome State Fault Refusal :=
  .next (writeTrigger by_ (sideKey die.val side.val) v s)

def execSideAcceptDescriptor (die : DieNo) (side : SideNo) (s : State) : Host.Outcome State Fault Refusal :=
  .next (acceptNext (sideKey die.val side.val) s)

def execHbmAccessComplete (die : DieNo) (side : SideNo) (a : HbmAccess) (o : SectorOutcome) (s : State) : Host.Outcome State Fault Refusal :=
  .next (accessDone (sideKey die.val side.val) a o s)

/-- A refresh changes no value that can be read (R189). -/
def execHbmRefresh (die : DieNo) (_channel : Fin 32) (_bank : Nat) (s : State) : Host.Outcome State Fault Refusal :=
  .next (if die.val < diesOf s.fuses.variant then updHbmDie s die.val fun d => { d with refreshes := d.refreshes + 1 } else s)

def execDrainWordArrives (die : DieNo) (side : SideNo) (lane : Fin 16) (s : State) : Host.Outcome State Fault Refusal :=
  .next (drainArrives (sideKey die.val side.val) lane.val s)

def execDescriptorComplete (die : DieNo) (side : SideNo) (slot : Fin 80) (s : State) : Host.Outcome State Fault Refusal :=
  .next (completeDescriptor (sideKey die.val side.val) slot.val s)

/-- The step service has read records (Table 7-9). -/
def execCqHeadWrite (by_ : Requester) (die : DieNo) (side : SideNo) (head : BitVec 12) (s : State) : Host.Outcome State Fault Refusal :=
  let k := sideKey die.val side.val
  .next (if isService s by_ && mayReach s (.sideWin k 0x2018) by_ then updSide s k fun sd => { sd with cqHead := head } else s)

def execLightPathComplete (die : DieNo) (side : SideNo) (slot : Fin 24) (o : SectorOutcome) (s : State) : Host.Outcome State Fault Refusal :=
  .next (lightComplete (sideKey die.val side.val) slot.val o s)

end Sys2Proof.Machine
end

