-- ==== Sys2Proof/Machine/MaintLock.lean ====
section
/-! DEFINITION. The maintenance lock: what each activity touches, and which of them wait (16 R452, Table 16-5). -/

namespace Sys2Proof.Machine

def activityIx : Activity → Nat
  | .scrub => 0
  | .retrain => 1
  | .port => 2
  | .freq => 3
  | .selfTest => 4
  | .lace => 5
  | .save => 6
  | .firmware => 7
  | .audit => 8

/-- Table 16-5: an activity that starts while another runs waits, where they touch a common resource. -/
def waitsFor : Activity → Activity → Bool
  | .scrub, .scrub => true
  | .scrub, .retrain => true
  | .retrain, .scrub => true
  | .retrain, .retrain => true
  | .retrain, .save => true
  | .port, .port => true
  | .selfTest, .selfTest => true
  | .selfTest, .save => true
  | .lace, .lace => true
  | .save, .retrain => true
  | .save, .selfTest => true
  | .save, .save => true
  | .firmware, .firmware => true
  | .firmware, .audit => true
  | .audit, .firmware => true
  | .audit, .audit => true
  | _, _ => false

def meets (a b : List Nat) : Bool := a.any fun x => b.contains x

/-- Two activities touch a common resource (R452). -/
def sharesResource (a b : Running) : Bool :=
  meets a.parts b.parts || meets a.quads b.quads || meets a.segments b.segments || meets a.channels b.channels
    || meets a.ports b.ports || (a.services && b.services)

def mustWait (a b : Running) : Bool := waitsFor a.activity b.activity && sharesResource a b

/-- HBM channels of a quadrant, as die × 32 + channel (R33). -/
def channelsOfQuad (g : Nat) : List Nat := (List.range 8).map fun i => g / 4 * 32 + g % 4 * 8 + i

def channelsOfDie (die : Nat) : List Nat := (List.range 32).map fun i => die * 32 + i

def diesOfPart (s : State) (p : Nat) : List Nat := ((quadsOfPart s p).map (· / 4)).eraseDups

def idleActivity (a : Activity) (target : Nat) : Running :=
  { activity := a, dies := [], parts := [], quads := [], segments := [], channels := [], ports := [], services := false, target := target }

/-- Scrub and retraining of a channel: the whole stack under the lock, or in approved mode the channel alone and no lock. -/
def channelActivity (s : State) (a : Activity) (die ch : Nat) : Running :=
  if s.sec.caerec.approved then { idleActivity a ch with channels := [die * 32 + ch] }
  else { idleActivity a ch with dies := [die], channels := channelsOfDie die }

def portActivity (k : Nat) : Running := { idleActivity .port k with dies := [k / 3], ports := [k] }

def selfTestActivity (g : Nat) : Running :=
  { idleActivity .selfTest g with dies := [g / 4], quads := [g], channels := channelsOfQuad g }

def laceActivity (g : Nat) : Running := { idleActivity .lace g with dies := [g / 4], segments := [g] }

def saveActivity (s : State) (p : Nat) : Running :=
  { idleActivity .save p with dies := diesOfPart s p, parts := [p], quads := quadsOfPart s p
                              channels := (quadsOfPart s p).flatMap channelsOfQuad }

def freqActivity (s : State) (p : Nat) : Running := { idleActivity .freq p with dies := diesOfPart s p, parts := [p] }

def servicesActivity (a : Activity) : Running := { idleActivity a 0 with dies := [0], services := true }

def setMaint (s : State) (f : Maint → Maint) : State := { s with pack := { s.pack with maint := f s.pack.maint } }

def maintBlocked (s : State) (r : Running) : Bool := s.pack.maint.active.any (mustWait r)

/-- The activity runs, or waits in arrival order; whether it runs. -/
def startActivity (r : Running) (s : State) : Bool × State :=
  if maintBlocked s r then (false, setMaint s fun m => { m with waiting := m.waiting ++ [r] })
  else (true, setMaint s fun m => { m with active := m.active ++ [r] })

/-- The first activity of a kind that runs on a die. -/
def runningOn (s : State) (die : Nat) (a : Activity) : Option Running :=
  s.pack.maint.active.find? fun r => r.activity == a && (r.dies.contains die || r.channels.any fun c => c / 32 == die)

/-- Waiting activities that may run now, in arrival order. -/
def admitted : List Running → List Running → List Running × List Running
  | active, [] => (active, [])
  | active, r :: rest =>
    if active.any (mustWait r) then
      let (a, w) := admitted active rest
      (a, r :: w)
    else admitted (active ++ [r]) rest

/-- The activity ends; those that waited for it run. The new ones are answered. -/
def endActivity (r : Running) (s : State) : List Running × State :=
  let m := s.pack.maint
  let left := m.active.filter (· ≠ r)
  let (active, waiting) := admitted left m.waiting
  (active.drop left.length, setMaint s fun m => { m with active := active, waiting := waiting })

/-- `maint.active` or `maint.waiting` of a die. -/
def activityBits (die : Nat) (rs : List Running) : Nat :=
  (List.range 9).foldl (fun a i => a + b2n (rs.any fun r => activityIx r.activity == i && r.dies.contains die) * 2 ^ i) 0

end Sys2Proof.Machine
end

