-- ==== Sys2Proof/Machine/Steps.lean ====
section
/-! DEFINITION. The step service: starting and ending steps, boundary records, checkpoints, aborts and retries, the selvedge barrier,
saves (09 R275 to R284, 08 R250 to R252, 11 R307 to R308, 14 R391 to R393, 16 R443 to R450). -/

namespace Sys2Proof.Machine

/-! ## Service messages (R307, R308) -/

/-- Chip numbers of the peers that an image has. -/
def peersOf (s : State) (p : Nat) (im : Image) : List Nat :=
  (List.range im.peers).map fun i => ofLe (bytesAt (getPart s p).pattern.peersUsed (2 * i) 2)

def sendService (p chip type : Nat) (payload : Bytes) (s : State) : State :=
  (sendMessage p { chip := BitVec.ofNat 16 chip, cls := 10, target := 0, flow := 0xF000, thread := 0, tag := 0
                   operand := BitVec.ofNat 32 type } payload [] (.service (BitVec.ofNat 5 p)) s).1

/-- A handle names a place of this package (R17). -/
def handleIsHere (s : State) (h : W64) : Bool := bits 63 48 h.toNat == 0xFFFF || bits 63 48 h.toNat == s.links.chip.toNat

/-- Sender tables of a partition (R244): of its shuttles and of the forwarders of its sides. -/
def senderTables (s : State) (p : Nat) : List (Sparse Sender) :=
  ((shuttlesOfPart s p).map fun n => (getShuttle s n).senders) ++ (sidesOfPart s p).map fun k => (getSide s k).senders

/-- The records that p sends a peer: every entry whose handle names it (R308). -/
def exchangeBytes (s : State) (p chip : Nat) : Bytes :=
  let es := (senderTables s p).flatMap fun m => (m.map (·.2)).filter fun e => bits 63 48 e.handle.toNat == chip
  leBytes 8 (getPart s p).step.counter.toNat ++ leBytes 4 es.length
    ++ es.flatMap fun e => leBytes 8 e.handle.toNat ++ leBytes 8 e.acked.toNat

def sendBarrier (p : Nat) (im : Image) (s : State) : State :=
  (peersOf s p im).foldl (fun s c =>
    sendService p c 3 (leBytes 8 (getPart s p).step.counter.toNat) (sendService p c 2 (exchangeBytes s p c) s)) s

/-- A peer has sent its counts and its barrier for the boundary in progress. -/
def peerArrived (s : State) (p c : Nat) : Bool :=
  let q := (getPart s p).step
  q.arrived.any (fun e => e.1.toNat == c && e.2 == q.counter) && q.peerCounts.any fun e => e.1.toNat == c && e.2.1 == q.counter

/-! ## The selvedge barrier (R250) -/

/-- Accepted messages of every sender of one channel, modulo 2³². -/
def ackedSum (s : State) (p n c : Nat) : W32 :=
  let off := ctlWindow n + 0x1400 + 32 * c
  let here (h : W64) : Bool := handleIsHere s h && bits 47 0 h.toNat == off
  let tables := s.shuttles.map (·.2.senders) ++ s.sides.map (·.2.senders)
  let own := tables.foldl (fun a m => m.foldl (fun a e => if here e.2.handle then a + e.2.acked else a) a) (0 : W32)
  let q := (getPart s p).step
  (q.peerCounts.filter fun e => e.2.1 == q.counter).foldl (fun a e =>
    e.2.2.foldl (fun a r => if here r.1 then a + r.2 else a) a) own

def barrierChannel (p n c : Nat) (s : State) : State :=
  let ch := getChannel (getShuttle s n) c
  if !ch.opened then s
  else
    let sum := ackedSum s p n c
    let drift := ch.produced - sum
    let unread := (ch.produced - ch.consumed).toNat
    let s := updShuttle s n (putChannel c { ch with
      drift := drift, produced := sum, consumed := sum, wrPos := ch.rdPos, discarded := BitVec.ofNat 28 (min unread (2 ^ 28 - 1)) })
    if drift = 0 then s
    else
      let s := updPart s p fun q => { q with sync := { q.sync with drift := q.sync.drift + 1 } }
      assertEvent (srcPart p 4) ((getPart s p).sync.drift.setWidth 64) s

def selvedgeDue (s : State) (p : Nat) : Bool :=
  let q := getPart s p
  q.sync.interval ≠ 0 && q.step.counter.toNat % q.sync.interval.toNat == 0

def runBarrier (p : Nat) (s : State) : State :=
  let s := updPart s p fun q => { q with sync := { q.sync with drift := 0, lastStep := q.step.counter.setWidth 64 } }
  let s := (shuttlesOfPart s p).foldl (fun s n => (List.range 64).foldl (fun s c => barrierChannel p n c s) s) s
  updStep s p fun q => { q with peerCounts := [], arrived := [] }

/-! ## Boundary records (R279) -/

/-- The shuttle and knot of an image's end knot, and its declared count. -/
def endKnot (im : Image) (pl : Placed) : Nat × Nat × Nat :=
  let w := ((boundaryOf im 1).map (recW · 0)).headD 0
  (8 * gOf im pl (bits 8 4 w) + bits 14 12 w, bits 23 16 w, bits 47 32 w)

def carriedPlace (im : Image) (pl : Placed) (r : ImgRec) : Nat × Nat × Nat :=
  let w := recW r 0
  (8 * gOf im pl (bits 8 4 w) + bits 14 12 w, recW r 1, recW r 2)

def placedOf (s : State) (p : Nat) : Placed := ⟨p, (getPart s p).pattern.a, (getPart s p).pattern.b⟩

def tablesOf (h : Shuttle) : ShuttleTables := { knots := h.knots, channels := h.channels, queues := h.queues, senders := h.senders }

def withTables (t : ShuttleTables) (h : Shuttle) : Shuttle :=
  { h with knots := t.knots, channels := t.channels, queues := t.queues, senders := t.senders }

/-- Knots of the partition's tiles, by tile key × 8 + knot. -/
def tileKnots (s : State) (p : Nat) : Sparse Knot :=
  (tilesOfPart s p).foldl (fun m e =>
    let k := tileKey e.1 e.2
    (getTile s k).knots.foldl (fun m x => sPut {} (8 * k + x.1) x.2 m) m) []

def takeRecord (s : State) (p : Nat) (im : Image) : BoundaryRec :=
  let pl := placedOf s p
  { valid := true, counter := (getPart s p).step.counter, lineage := (getPart s p).step.lineage
    carried := (boundaryOf im 3).map fun r =>
      let (n, o, len) := carriedPlace im pl r
      ⟨n, o, localRead (getShuttle s n) o len⟩
    knots := tileKnots s p
    shuttles := (shuttlesOfPart s p).foldl (fun m n => sPut {} n (tablesOf (getShuttle s n)) m) [] }

def carriedPoisoned (s : State) (p : Nat) (im : Image) : Bool :=
  (boundaryOf im 3).any fun r =>
    let (n, o, len) := carriedPlace im (placedOf s p) r
    localPoison (getShuttle s n) o len

/-! ## Rewriting a partition (R280) -/

/-- A tile as the retry rewrites it, but for its image: what counts since install or since start stays. -/
def freshTile (t : Tile) : Tile :=
  { repaired := t.repaired, counts := t.counts, drain := { lost := t.drain.lost }
    num := { t2Invalid := t.num.t2Invalid, nanNarrow := t.num.nanNarrow, mscaleRange := t.num.mscaleRange, scaleNan := t.num.scaleNan } }

def freshSide (sd : Side) : Side := { completions := sd.completions, senders := sd.senders }

/-- Local memory and threads rewritten; threads stand halted at their start `pc`. -/
def freshShuttle (h : Shuttle) : Shuttle :=
  { tagStalls := h.tagStalls, requests := h.requests, tags := (haltThreads h).tags
    threads := sMap {} (fun th => { switches := th.switches }) h.threads }

/-- A message under way was sent by partition p. -/
def sentBy (s : State) (p : Nat) : MsgFrom → Bool
  | .tile x y _ => ownerOf s (quadOf x.toNat y.toNat) == p
  | .thread n _ => ownerOf s (n.toNat / 8) == p
  | .service q => q.toNat == p
  | .remote .. => false

def netFrom : NetMsg → MsgFrom
  | .knotOp f .. => f
  | .knotReply f .. => f
  | .data f .. => f

/-- Messages of an aborted attempt go; packets that have left keep their place in their flows and answer nobody. -/
def dropMessages (p : Nat) (s : State) : State :=
  let s := { s with net := s.net.filter fun m => !sentBy s p (netFrom m) }
  let quiet (t : TxPacket) : TxPacket := if t.transit then t else { t with origin := .service (BitVec.ofNat 5 p) }
  updRoute s p fun r => { r with waiting := r.waiting.map quiet, retained := r.retained.map quiet }

/-- Items 1 to 3 of R280, with the segments reset (R331): tiles and sides from the image, shuttle memory from the image and the
record. -/
def rewrite (p : Nat) (im : Image) (r : Option BoundaryRec) (s : State) : State :=
  let pl := placedOf s p
  let s := dropMessages p s
  let s := onTiles p (fun _ _ t => freshTile t) s
  let s := (sidesOfPart s p).foldl (fun s k => updSide s k freshSide) s
  let s := onShuttles p freshShuttle s
  let s := match writeImage im pl true false s with
    | .ok l => l.1
    | .error _ => s
  let s := onTiles p (placeTile im.entryAddr) s
  let s := match r with
    | none => s
    | some r =>
      let s := r.knots.foldl (fun s e =>
        putTile s (e.1 / 8) { getTile s (e.1 / 8) with knots := sPut {} (e.1 % 8) e.2 (getTile s (e.1 / 8)).knots }) s
      let s := r.shuttles.foldl (fun s e => updShuttle s e.1 (withTables e.2)) s
      let s := r.carried.foldl (fun s c => updShuttle s c.shuttle (localWrite c.offset c.data false)) s
      updStep s p fun q => { q with lineage := r.lineage }
  updHold (resetLaces p s) p resetHold

/-! ## The start of a step (R278, Table 9-2) -/

def setTemplate (im : Image) (pl : Placed) (counter : Nat) (r : ImgRec) (s : State) : State :=
  let w := recW r 0
  let gen := (counter + b2n (bitAt 24 w)) % 2
  let (g, o) := imgHbm im pl (recW r (1 + gen))
  let at_ := hbmOffset s.fuses.variant g o
  updSide s (sideOfQuad (gOf im pl (bits 8 4 w)) (bits 14 12 w)) fun sd =>
    let i := bits 23 16 w * 4 + 1
    { sd with templates := sPut 0 i (n64 ((sGet 0 i sd.templates).toNat / 2 ^ 48 * 2 ^ 48 + at_)) sd.templates }

/-- Threads that the image names and that stand halted start. -/
def startThreads (im : Image) (pl : Placed) (s : State) : State :=
  im.threads.foldl (fun s r =>
    let w := recW r 0
    updThread s (shuttleOfRec im pl w) (bits 19 16 w) fun th => if th.state = 5 then { th with state := 0 } else th) s

def drainsLost (s : State) (p : Nat) : Nat := ((quadsOfPart s p).map fun g => (sGet {} g s.quadCounts : QuadCounts).drainLost.toNat).sum

/-- The next step of partition p starts. -/
def startStep (p : Nat) (im : Image) (s : State) : State :=
  let pl := placedOf s p
  let counter := (getPart s p).step.counter
  let s := (boundaryOf im 2).foldl (fun s r => setTemplate im pl counter.toNat r s) s
  let (n, k, _) := endKnot im pl
  let s := updShuttle s n fun h => { h with knots := sUpd {} k (fun x : Knot => { gen := x.gen }) h.knots }
  let s := startThreads im pl s
  let seed := (getPart s p).pattern.seedInForce
  let s := onTiles p (fun x y t =>
    tileStepStart (BitVec.ofNat 7 im.entryAddr) seed (counter.setWidth 64) (BitVec.ofNat 10 x) (BitVec.ofNat 10 y) t) s
  let s := (quadsOfPart s p).foldl (fun s g =>
    { s with quadCounts := sUpd {} g (fun c : QuadCounts => { c with commitSum := 0 }) s.quadCounts }) s
  let s := updRecd s p fun r => { r with sent := [] }
  let s := { s with links := { s.links with lastStep := s.rackNs } }
  let s := updStep s p fun q => { q with
    state := 2, phase := 0, barrierSent := false, startNs := s.nowNs, startSBeat := (getPart s p).hold.sBeat, heldNs := 0
    lostAt := drainsLost s p }
  armStamp p (updHold s p fun h => { h with stepRuns := true, haltAt := none, frozen := false, noMore := false })

/-! ## Step marks (R445, R446, R450) -/

def commitSums (s : State) (p : Nat) : List W64 := (quadsOfPart s p).map fun g => (sGet {} g s.quadCounts : QuadCounts).commitSum

def outputDigest (s : State) (p : Nat) : Bytes :=
  sha384 ((getPart s p).recd.sent.flatMap fun e => leBytes 2 (e.1 / 65536) ++ leBytes 2 (e.1 % 65536) ++ sha384 e.2)

def stepMark (s : State) (p : Nat) : Bytes :=
  fixedBytes 48 (getPart s p).step.lineage ++ outputDigest s p ++ (commitSums s p).flatMap fun w => leBytes 8 w.toNat

/-- Bits of `replay.diverged_mask` for two marks of n quadrants. -/
def markMask (n : Nat) (a b : Bytes) : Nat :=
  ((List.range n).map fun i => b2n (bytesAt a (96 + 8 * i) 8 ≠ bytesAt b (96 + 8 * i) 8) * 2 ^ i).sum
    + b2n (bytesAt a 48 48 ≠ bytesAt b 48 48) * 2 ^ 32 + b2n (bytesAt a 0 48 ≠ bytesAt b 0 48) * 2 ^ 33

/-- The step mark of a recording, after which its entries are kept, or the comparison of a replay. -/
def markStep (p : Nat) (s : State) : State :=
  let counter := (getPart s p).step.counter
  let mark := stepMark s p
  let r := (getPart s p).recd
  if r.state = 1 then
    let s := recordEntry p { kind := 8, loc := false, flow := 0, target := 0, offset := stepOffset s p, step := counter.toNat
                             srcChip := 0xFFFF, payload := mark } s
    if (getPart s p).recd.state ≠ 1 then s
    else
      let s := updRecd s p fun r => { r with stepFrom := r.used, mark := counter.setWidth 64 }
      let s := putRecordBytes p 224 (leBytes 8 (getPart s p).recd.entries ++ leBytes 8 counter.toNat) s
      if r.ending then endRecording p s else s
  else if replaying s p then
    match (unconsumed s p).find? fun e => e.2.kind == 8 with
    | none => s
    | some (i, e) =>
      let s := consume p i s
      let m := markMask (quadsOfPart s p).length mark e.payload
      if m = 0 then s else diverge p (n64 m) s
  else s

/-- The entries of an aborted attempt are dropped (R446); a replay reads them again. -/
def dropAttempt (p : Nat) (s : State) : State :=
  let r := (getPart s p).recd
  if r.state = 1 then
    let s := updRecd s p fun r => { r with used := r.stepFrom }
    updRecd s p fun r => { r with entries := (recordedEntries s p).length }
  else if r.state = 2 then
    let c := (getPart s p).step.counter.toNat
    let es := recordedEntries s p
    updRecd s p fun r => { r with consumed := r.consumed.filter fun i => match es[i]? with
      | some e => e.kind == 8 || e.step < c
      | none => false }
  else s

/-! ## Ending and aborting (R276, R280, R281) -/

/-- R276: the conditions under which a step ends. -/
def stepEnded (s : State) (p : Nat) (im : Image) : Bool :=
  let (n, k, count) := endKnot im (placedOf s p)
  decide (count ≤ (sGet {} k (getShuttle s n).knots : Knot).count.toNat)
    && ((tilesOfPart s p).all fun e =>
      let t := getTile s (tileKey e.1 e.2)
      (!tileIsHead t || t.issue.stopped) && t.drain.buf.isEmpty && t.outQ.isEmpty)
    && (sidesOfPart s p).all fun k => (getSide s k).slots.all fun e => !e.2.active

def stopStep (p : Nat) (reason : Byte) (s : State) : State :=
  let s := updStep s p fun q => { q with state := 4, stopReason := reason, reqStop := false, phase := 0 }
  let s := updHold s p fun h => { h with stepRuns := false }
  let s := if replaying s p && reason = 2 then updRecd s p fun r => { r with state := 4 } else s
  assertEvent (srcPart p 9) (reason.setWidth 64) s

/-- Time of the step, without that under the debug source (R435). -/
def stepTime (s : State) (p : Nat) : Nat :=
  let q := (getPart s p).step
  let d := (getPart s p).debugging
  s.nowNs - q.startNs - q.heldNs - (if (getPart s p).hold.debug then s.nowNs - max d.since q.startNs else 0)

/-- The first fault of a partition (R104): lowest `s_beat`, then y, then x. -/
def firstFault (s : State) (p : Nat) : Option (Nat × Nat × FaultRec) :=
  (tilesOfPart s p).foldl (fun (b : Option (Nat × Nat × FaultRec)) e =>
    let f := (getTile s (tileKey e.1 e.2)).fault
    if !f.valid then b
    else match b with
      | none => some (e.1, e.2, f)
      | some (x, y, g) =>
        if f.sBeat.toNat < g.sBeat.toNat || (f.sBeat == g.sBeat && (e.2 < y || (e.2 == y && e.1 < x))) then some (e.1, e.2, f) else b) none

/-- The record of 48 bytes and the tile's word (R280, R437). -/
def firstFaultBytes (s : State) (p : Nat) : Bytes :=
  match firstFault s p with
  | none => List.replicate 56 0
  | some (x, y, f) => ((List.range 6).flatMap fun i => leBytes 8 (faultWord f i).toNat) ++ leBytes 8 (x + y * 2 ^ 16)

def abortAll (p : Nat) (s : State) : State := (sidesOfPart s p).foldl (fun s k => updSide s k abortSlots) s

/-- A step is aborted for a cause, and retried or failed (R280, R281). -/
def abortStep (p : Nat) (cause : Byte) (s : State) : State :=
  match installedImage s p with
  | none => s
  | some im =>
    let counter := (getPart s p).step.counter
    let s := if cause = 1 then updStep s p fun q => { q with lastFault := firstFaultBytes s p } else s
    let s := updStep s p fun q => { q with lastAbort := cause, phase := 0, barrierSent := false }
    let s := updDebug s p fun d => { d with abortWaits := false, state := if (getPart s p).hold.debug || d.state = 1 then d.state else 0 }
    let s := assertEvent (srcPart p 0) (n64 (cause.toNat + counter.toNat * 2 ^ 8)) s
    let s := if im.localOnly || cause = 6 then s
      else (peersOf s p im).foldl (fun s c => sendService p c 1 (leBytes 8 counter.toNat ++ [cause]) s) s
    let s := dropAttempt p s
    let q := (getPart s p).step
    if q.retryLimit.toNat ≤ q.consecutive then
      let s := updHold (abortAll p s) p fun h => { h with stepRuns := false }
      assertEvent (srcPart p 1) (counter.setWidth 64) (updStep s p fun q => { q with state := 6 })
    else
      let s := updStep s p fun q => { q with consecutive := q.consecutive + 1, retries := q.retries + 1, state := 5 }
      let s := startStep p im (rewrite p im (getPart s p).step.records.head? s)
      updStep s p fun q => { q with state := if q.reqStop then 3 else 2 }

/-! ## Results and checkpoints (R282, R393) -/

def sealRoom (s : State) (p : Nat) : Bool := (getPart s p).seals.queue.length < 64

/-- A result record before its seal (Table 14-9): 184 bytes. -/
def resultRecord (s : State) (p : Nat) (checkpoint : Bool) : Bytes :=
  let q := getPart s p
  leBytes 4 0x4C414553 ++ leBytes 2 1 ++ leBytes 1 p ++ leBytes 1 (b2n checkpoint) ++ leBytes 2 s.links.chip.toNat ++ List.replicate 6 0
    ++ leBytes 8 q.step.counter.toNat ++ leBytes 8 s.rackNs.toNat ++ fixedBytes 48 q.pattern.digest ++ fixedBytes 48 q.step.lineage
    ++ fixedBytes 48 q.step.inputDigest ++ List.replicate 8 0

def queueSeal (p : Nat) (checkpoint : Bool) (s : State) : State :=
  updSeals s p fun e => { e with queue := e.queue ++ [resultRecord s p checkpoint] }

/-- Image address of a tensor's current generation: word 1 of its record names generation 0, and a generational template with the
same generation 0 names the other (log 22). -/
def currentTensor (im : Image) (counter : Nat) (r : ImgRec) : Nat :=
  if counter % 2 = 0 then recW r 1
  else (((boundaryOf im 2).find? fun t => recW t 1 == recW r 1).map fun t => recW t 2).getD (recW r 1)

def tensorPoisoned (s : State) (im : Image) (pl : Placed) (counter : Nat) : Bool :=
  (boundaryOf im 4).any fun r =>
    let (g, o) := imgHbm im pl (currentTensor im counter r)
    (List.range ((o + recW r 2 + 31) / 32 - o / 32)).any fun i => sGet false (o / 32 + i) (getHbm s g).poison

def checkpointOf (s : State) (p : Nat) (im : Image) : Checkpoint :=
  let pl := placedOf s p
  let q := getPart s p
  { complete := true, rec_ := (q.step.records.head?).getD {}
    tensors := (boundaryOf im 4).map fun r =>
      let (g, o) := imgHbm im pl (currentTensor im q.step.counter.toNat r)
      ⟨g, o, hbmBytes (getHbm s g) o (recW r 2)⟩
    seed := q.pattern.seedInForce, digest := q.pattern.digest }

/-- The older slot takes the checkpoint, and its record is queued for sealing. -/
def takeCheckpoint (p : Nat) (im : Image) (s : State) : State :=
  let s := updStep s p fun q => { q with checkpoints := (checkpointOf s p im :: q.checkpoints).take 2, reqCheckpoint := false }
  queueSeal p true s

def checkpointDue (s : State) (p : Nat) : Bool :=
  let q := getPart s p
  q.step.reqCheckpoint || q.recd.arming
    || (q.step.interval ≠ 0 && q.step.counter.toNat % q.step.interval.toNat == 0)

/-! ## Recording starts at a boundary (R443, Table 16-6) -/

def variantIx : Variant → Nat
  | .f8x48 => 0
  | .n8x48 => 1
  | .f4x36 => 2
  | .n4x36 => 3
  | .n2x36 => 4

def placementBytes (s : State) (p : Nat) : Bytes :=
  let q := (getPart s p).pattern
  [BitVec.ofInt 8 q.a, BitVec.ofInt 8 q.b]

def laceDigests (s : State) (p : Nat) : Bytes := sha384 ((quadsOfPart s p).flatMap fun g => fixedBytes 48 (getLace s g).digest)

def recordHeader (s : State) (p : Nat) : Bytes :=
  let q := getPart s p
  leBytes 4 0x4F434552 ++ leBytes 2 1 ++ leBytes 1 p ++ leBytes 1 (variantIx s.fuses.variant) ++ leBytes 8 q.step.counter.toNat
    ++ leBytes 8 q.pattern.seedInForce.toNat ++ placementBytes s p ++ List.replicate 6 0 ++ fixedBytes 48 q.pattern.digest
    ++ fixedBytes 48 s.sec.fw.activeDigest ++ laceDigests s p ++ fixedBytes 48 q.step.lineage ++ leBytes 8 0
    ++ leBytes 8 q.step.counter.toNat ++ List.replicate 16 0

def beginRecording (p : Nat) (s : State) : State :=
  if !(getPart s p).recd.arming then s
  else
    let s := putRecordBytes p 0 (recordHeader s p) s
    let counter := (getPart s p).step.counter
    updRecd s p fun r => { r with arming := false, state := 1, used := 256, stepFrom := 256, entries := 0, mark := counter.setWidth 64 }

/-! ## Saves (R252, R283, R386) -/

/-- The save area has room in each quadrant (R386). -/
def saveRoom (s : State) (im : Image) : Bool :=
  let base := (im.hbmBytes + 0xFFFFF) / 0x100000 * 0x100000
  base + 4718592 + reserveBytes im ≤ hbmQuadBytes s.fuses.variant

/-- Requests and forwarders are at rest; a thread that waits at a knot sends its request again after the restore. -/
def readyToSave (s : State) (p : Nat) : Bool :=
  ((shuttlesOfPart s p).all fun n => (getShuttle s n).tags.all fun e => !e.2.valid || e.2.resend.isSome)
    && (sidesOfPart s p).all fun k => (getSide s k).fwd.isEmpty

def imageQuads (im : Image) (pl : Placed) : List (Nat × Nat) := (List.range im.quadrants).map fun q => (q, gOf im pl q)

def saveOf (s : State) (p : Nat) (im : Image) : Save :=
  let pl := placedOf s p
  let q := getPart s p
  { valid := true
    shuttles := (imageQuads im pl).foldl (fun m e =>
      (List.range 8).foldl (fun m k => sPut {} (8 * e.1 + k) { getShuttle s (8 * e.2 + k) with icache := [] } m) m) []
    knots := (imageQuads im pl).foldl (fun m e =>
      ((List.range 32768).zip (tilesOfQuad e.2)).foldl (fun m t =>
        (getTile s (tileKey t.2.1 t.2.2)).knots.foldl (fun m x => sPut {} ((e.1 * 32768 + t.1) * 8 + x.1) x.2 m) m) m) []
    counter := q.step.counter, lineage := q.step.lineage, seed := q.pattern.seedInForce, a := pl.a, b := pl.b }

def savePartition (p : Nat) (im : Image) (s : State) : State :=
  let s := updStep s p fun q => { q with save := saveOf s p im, state := 7, stopReason := 5, reqPreempt := false, reqStop := false, phase := 0 }
  let s := updHold s p fun h => { h with stepRuns := false }
  let s := dropChange p (onShuttles p haltThreads s)
  assertEvent (srcPart p 9) 5 s

/-- The holder of a knot after a resume: the same tile or thread of the image, on its new quadrant. -/
def moveOwner (im : Image) (old new : Placed) (k : Knot) : Knot :=
  if k.state ≠ 1 then k
  else if k.ownerTile then
    let x : Int := (k.ownerX.toNat : Int) + 256 * (new.a - old.a)
    let y : Int := (k.ownerY.toNat : Int) + 128 * (new.b - old.b)
    { k with ownerX := BitVec.ofInt 10 x, ownerY := BitVec.ofInt 10 y }
  else
    let g := k.owner.toNat / 128
    match (imageQuads im old).find? fun e => e.2 == g with
    | some (q, _) => { k with owner := BitVec.ofNat 12 (gOf im new q * 128 + k.owner.toNat % 128) }
    | none => k

/-- A thread that waits at a knot of its own shuttle asks under its number on the new shuttle `n`. -/
def moveWait (n t : Nat) (th : Thread) : Thread :=
  match th.waiting with
  | .ownKnot rd k op v _ => { th with waiting := .ownKnot rd k op v (BitVec.ofNat 12 (16 * n + t)) }
  | _ => th

/-- The words of local memory that relocation records name are those of the image under the new translation (R283). `fresh`: the
state in which the image has just been written there. -/
def relocatedWords (im : Image) (pl : Placed) (fresh : State) (s : State) : State :=
  im.reloc.foldl (fun s r =>
    let o := recW r 2
    match bits 10 8 (recW r 0) with
    | 2 =>
      let n := shuttleOfRec im pl (recW r 1)
      updShuttle s n (localWrite o (localRead (getShuttle fresh n) o 8) false)
    | 3 =>
      let (g, q) := imgHbm im pl o
      writeHbm g q (hbmBytes (getHbm fresh g) q 8) false s
    | _ => s) s

/-- The save written back onto the partition's quadrants. -/
def restoreSave (p : Nat) (im : Image) (new : Placed) (s : State) : State :=
  let sv := (getPart s p).step.save
  let old : Placed := ⟨p, sv.a, sv.b⟩
  let move := moveOwner im old new
  let s := updPattern s p fun q => { q with a := new.a, b := new.b, seedInForce := sv.seed }
  let s := rewrite p im none s
  let fresh := match writeImage im new true true s with
    | .ok l => l.1
    | .error _ => s
  let s := (imageQuads im new).foldl (fun s e =>
    (List.range 8).foldl (fun s k =>
      let h : Shuttle := sGet {} (8 * e.1 + k) sv.shuttles
      let tags := h.tags.map fun t => (t.1, if t.2.valid then { t.2 with resend := some 0 } else t.2)
      let threads := h.threads.map fun t => (t.1, moveWait (8 * e.2 + k) t.1 t.2)
      putShuttle s (8 * e.2 + k) { h with knots := sMap {} move h.knots, tags := tags, threads := threads }) s) s
  let s := relocatedWords im new fresh s
  let s := sv.knots.foldl (fun s e =>
    let q := e.1 / 8 / 32768
    let (x, y) := (tilesOfQuad (gOf im new q)).getD (e.1 / 8 % 32768) (0, 0)
    let t := getTile s (tileKey x y)
    putTile s (tileKey x y) { t with knots := sPut {} (e.1 % 8) (move e.2) t.knots }) s
  updStep s p fun q => { q with counter := sv.counter, lineage := sv.lineage, consecutive := 0 }

/-! ## The boundary (R276) -/

def setPhase (p n : Nat) (s : State) : State := updStep s p fun q => { q with phase := n }

/-- Items 1 and 2. -/
def commitBoundary (p : Nat) (im : Image) (s : State) : State :=
  let s := updHold (resetLaces p s) p fun h => { h with stepRuns := false }
  let beats := stepOffset s p
  let s := updStep s p fun q => { q with lastNs := n64 (stepTime s p) }
  let s := if beats = im.sStep then s
    else assertEvent (srcPart p 3) (n64 beats) (updStep s p fun q => { q with mismatch := q.mismatch + 1 })
  if (getPart s p).step.counter.toNat = 2 ^ 48 - 1 then stopStep p 4 s
  else if carriedPoisoned s p im then abortStep p 5 s
  else
    let s := updStep s p fun q =>
      let digest := sha384 q.batch
      { q with counter := q.counter + 1, inputDigest := digest, lineage := sha384 (fixedBytes 48 q.lineage ++ digest), consecutive := 0
               batch := [], barrierSent := false }
    let r := takeRecord s p im
    let s := updStep s p fun q => { q with records := (r :: q.records).take 2 }
    setPhase p 3 (markStep p s)

/-- Item 3: the barrier waits for every peer; one that cannot be reached aborts the step (R308). -/
def barrierPhase (p : Nat) (im : Image) (s : State) : State :=
  if !selvedgeDue s p then setPhase p 4 s
  else
    let s := if (getPart s p).step.barrierSent then s
      else updStep (sendBarrier p im s) p fun q => { q with barrierSent := true }
    let peers := peersOf s p im
    if peers.any (fun c => sGet false c (getRoute s p).unreach) then abortStep p 6 s
    else if peers.all (peerArrived s p) then setPhase p 4 (runBarrier p s)
    else s

/-- Item 4. -/
def checkpointPhase (p : Nat) (im : Image) (s : State) : State :=
  if !checkpointDue s p then setPhase p 5 s
  else if tensorPoisoned s im (placedOf s p) (getPart s p).step.counter.toNat then abortStep p 2 s
  else if !sealRoom s p then s
  else setPhase p 5 (beginRecording p (takeCheckpoint p im s))

/-- Item 5, and R273: a wait for the queue counts in the step's duration. -/
def sealPhase (p : Nat) (im : Image) (s : State) : State :=
  if !sealRoom s p then updStep s p fun q => { q with lastNs := n64 (stepTime s p) }
  else
    let s := queueSeal p false s
    let ns := (getPart s p).step.lastNs
    let s := if im.budget ≠ 0 && im.budget < ns.toNat then
        assertEvent (srcPart p 2) ns (updStep s p fun q => { q with overruns := q.overruns + 1 })
      else s
    setPhase p 6 s

/-- Item 6 (R272). -/
def deadlinePhase (p : Nat) (im : Image) (s : State) : State :=
  if !(getPart s p).step.reeval then setPhase p 7 s
  else
    let s := updStep s p fun q => { q with reeval := false }
    let s := updPattern s p fun q => { q with worstNs := n64 (worstCase (figuresOf s p) im) }
    match (if replaying s p then none else deadlineRefusal s p im) with
    | none => setPhase p 7 s
    | some r => stopStep p 3 (updPattern s p fun q => { q with refusal := refusalBytes r })

/-- Items 7 and 8. -/
def lastPhase (p : Nat) (im : Image) (s : State) : State :=
  let q := (getPart s p).step
  if q.reqPreempt then
    if readyToSave s p && !maintBlocked s (saveActivity s p) then savePartition p im s else s
  else if q.reqStop then stopStep p 1 s
  else if q.target ≠ 0 && q.target.toNat ≤ q.counter.toNat then stopStep p 2 s
  else startStep p im s

/-- The boundary as far as it gets now. -/
def boundary (p : Nat) (im : Image) : Nat → State → State
  | 0, s => s
  | fuel + 1, s =>
    let s' := match (getPart s p).step.phase with
      | 3 => barrierPhase p im s
      | 4 => checkpointPhase p im s
      | 5 => sealPhase p im s
      | 6 => deadlinePhase p im s
      | _ => lastPhase p im s
    let q := (getPart s' p).step
    if q.phase = 0 || q.phase = (getPart s p).step.phase then s' else boundary p im fuel s'

def inStep (s : State) (p : Nat) : Bool := stepState s p == 2 || stepState s p == 3

/-- A stamped input of the step still has its turn before the boundary (R449). -/
def stampWaits (s : State) (p : Nat) : Bool := replaying s p && !(stampsLeft s p).isEmpty

def runBoundary (p : Nat) (s : State) : State :=
  match installedImage s p with
  | none => s
  | some im =>
    if !inStep s p || (getPart s p).hold.haltAt.isSome then s
    else if (getPart s p).step.phase ≠ 0 then boundary p im 8 s
    else if stepEnded s p im && !stampWaits s p then
      let s := commitBoundary p im s
      if (getPart s p).step.phase = 0 then s else boundary p im 8 s
    else s

/-! ## Commands (R275, Table 9-12) -/

def accepts (st v : Nat) : Bool :=
  match st with
  | 1 => v == 1
  | 2 => v == 2 || v == 3 || v == 4 || v == 5
  | 3 => v == 3
  | 4 => v == 1 || v == 4 || v == 7
  | 5 => v == 3
  | 6 => v == 1 || v == 7
  | 7 => v == 6
  | _ => false

def startCommand (p : Nat) (im : Image) (s : State) : Nat × State :=
  let q := (getPart s p).step
  if q.stopReason = 4 && q.counter.toNat = 2 ^ 48 - 1 then (codeCounterExhausted, s)
  else if quadMissing s p then (codePartitionBusy, s)
  else if q.state = 6 then
    let s := updStep s p fun q => { q with consecutive := 0 }
    (0, startStep p im (rewrite p im q.records.head? s))
  else (0, startStep p im s)

/-- The newer complete slot is restored (R282). -/
def restoreCommand (p : Nat) (im : Image) (s : State) : Nat × State :=
  match (getPart s p).step.checkpoints.find? (·.complete) with
  | none => (codePartitionBusy, s)
  | some c =>
    let s := updHold (rewrite p im (some c.rec_) s) p fun h => { h with sBeat := 0 }
    let s := c.tensors.foldl (fun s t => writeHbm t.quad t.offset t.data false s) s
    let s := updPattern s p fun q => { q with seedInForce := c.seed }
    (0, updStep s p fun q => { q with state := 4, counter := c.rec_.counter, consecutive := 0, records := [c.rec_] })

/-- R283: the placement is checked, then the segments' images, then the save is written back and the next step starts. -/
def resumeCommand (p : Nat) (im : Image) (s : State) : Nat × State :=
  let sv := (getPart s p).step.save
  match translation s p im with
  | none => (codePlacement, s)
  | some (a, b) =>
    let pl : Placed := ⟨p, a, b⟩
    if !placementLegal s p im a b then (codePlacement, s)
    else if !im.localOnly && (a ≠ sv.a || b ≠ sv.b) then (codePlacementFixed, s)
    else if (badIndex (laceRefHolds s im pl) im.laceRefs).isSome then (codeLaceMissing, s)
    else (0, startStep p im (restoreSave p im pl (ungateAll p s)))

def stepCommand (p : Nat) (r : Role) (v : Nat) (s : State) : Nat × State :=
  let st := stepState s p
  if v = 0 || 7 < v then (codeValueRange, s)
  else if r = .installer && v ≠ 5 && v ≠ 6 then (codeRoleRefused, s)
  else if st = 0 && v = 1 then (codeNoPattern, s)
  else if !accepts st v then (codePartitionBusy, s)
  else match installedImage s p with
  | none => (codeNoPattern, s)
  | some im =>
    let s := updStep s p fun q => { q with command := BitVec.ofNat 8 v }
    match v with
    | 1 => startCommand p im s
    | 2 => (0, updStep s p fun q => { q with reqStop := true, state := 3 })
    | 3 => (0, abortStep p 7 s)
    | 4 =>
      if st = 2 then (0, updStep s p fun q => { q with reqCheckpoint := true })
      else if !sealRoom s p || tensorPoisoned s im (placedOf s p) (getPart s p).step.counter.toNat then (codePartitionBusy, s)
      else (0, takeCheckpoint p im s)
    | 5 => if saveRoom s im then (0, updStep s p fun q => { q with reqPreempt := true }) else (codeNoSaveRoom, s)
    | 6 => resumeCommand p im s
    | _ => restoreCommand p im s

def stepCmd (by_ : Role) (p : PartNo) (v : Nat) (s : State) : Host.Outcome State Fault Refusal :=
  commandBy by_ (0x8410 + p.val) 1 v (stepCommand p.val by_ v) s

def execStepStart (by_ : Role) (p : PartNo) (s : State) : Host.Outcome State Fault Refusal := stepCmd by_ p 1 s
def execStepStop (by_ : Role) (p : PartNo) (s : State) : Host.Outcome State Fault Refusal := stepCmd by_ p 2 s
def execStepAbortCommand (by_ : Role) (p : PartNo) (s : State) : Host.Outcome State Fault Refusal := stepCmd by_ p 3 s
def execCheckpointCommand (by_ : Role) (p : PartNo) (s : State) : Host.Outcome State Fault Refusal := stepCmd by_ p 4 s
def execPreEmpt (by_ : Role) (p : PartNo) (s : State) : Host.Outcome State Fault Refusal := stepCmd by_ p 5 s
def execResume (by_ : Role) (p : PartNo) (s : State) : Host.Outcome State Fault Refusal := stepCmd by_ p 6 s
def execRestoreCheckpoint (by_ : Role) (p : PartNo) (s : State) : Host.Outcome State Fault Refusal := stepCmd by_ p 7 s

def execStepBoundary (p : PartNo) (s : State) : Host.Outcome State Fault Refusal := .next (runBoundary p.val s)

/-! ## Aborts of the step service (Table 9-14) -/

/-- A halt's abort waits for a snapshot or a release (R436). -/
def haltWaits (s : State) (p : Nat) : Bool :=
  let q := getPart s p
  q.debugging.abortWaits || q.debugging.state == 3 || q.hold.debug

/-- The partition has met a cause. -/
def causeHolds (s : State) (p : Nat) (im : Image) (cause : Nat) : Bool :=
  let h := (getPart s p).hold
  match cause with
  | 1 => h.frozen && (firstFault s p).isSome && !haltWaits s p
  | 2 => h.frozen && (firstFault s p).isNone && !haltWaits s p
  | 3 => (shuttlesOfPart s p).any fun n => (getShuttle s n).threads.any fun e => e.2.state == 6
  | 4 => decide ((getPart s p).step.lostAt < drainsLost s p)
  | 5 => carriedPoisoned s p im
  | 6 => (getPart s p).step.phase == 3 && (peersOf s p im).any fun c => sGet false c (getRoute s p).unreach
  | _ => false

def execStepAbort (p : PartNo) (cause : Byte) (s : State) : Host.Outcome State Fault Refusal :=
  .next (match installedImage s p.val with
    | some im => if inStep s p.val && causeHolds s p.val im cause.toNat then abortStep p.val cause s else s
    | none => s)

/-- The limit of cause 8. -/
def stepLimit (s : State) (p : Nat) : Nat :=
  let q := getPart s p
  if q.step.timeoutNs = 0 then 10 * q.pattern.worstNs.toNat else q.step.timeoutNs.toNat

def execStepTimeout (p : PartNo) (s : State) : Host.Outcome State Fault Refusal :=
  .next (if inStep s p.val && stepLimit s p.val < stepTime s p.val then abortStep p.val 8 s else s)

/-! ## The messages of a peer's step service (Table 11-4) -/

def peerAborts (p : Nat) (step : BitVec 48) (s : State) : State :=
  if (inStep s p || stepState s p == 5) && (getPart s p).step.counter = step then abortStep p 6 s else s

def peerCounted (p : Nat) (peer : W16) (step : BitVec 48) (counts : List (W64 × W32)) (s : State) : State :=
  if stepState s p = 0 then s else updStep s p fun q => { q with peerCounts := q.peerCounts ++ [(peer, step, counts)] }

def peerArrives (p : Nat) (peer : W16) (step : BitVec 48) (s : State) : State :=
  if stepState s p = 0 then s else updStep s p fun q => { q with arrived := q.arrived ++ [(peer, step)] }

def execServiceStepAbort (p : PartNo) (step : BitVec 48) (_cause : Byte) (s : State) : Host.Outcome State Fault Refusal :=
  .next (peerAborts p.val step s)

def execServiceCountExchange (p : PartNo) (peer : W16) (step : BitVec 48) (counts : List (W64 × W32)) (s : State) : Host.Outcome State Fault Refusal :=
  .next (peerCounted p.val peer step counts s)

def execServiceBarrier (p : PartNo) (peer : W16) (step : BitVec 48) (s : State) : Host.Outcome State Fault Refusal :=
  .next (peerArrives p.val peer step s)

end Sys2Proof.Machine
end

