-- ==== Sys2Proof/Machine/Debugging.lean ====
section
/-! DEFINITION. Debug holds, snapshots, knots set by hand, and the commands of recording and replay (16 R433 to R450). -/

namespace Sys2Proof.Machine

def codeNotHeld : Nat := 0xD10A0001
def codeDebugTooLate : Nat := 0xD10A0002
def codeSnapshotArea : Nat := 0xD10A0003
def codeSnapshotBusy : Nat := 0xD10A0004
def codeUnderTest : Nat := 0xD10A0005
def codeMaintBusy : Nat := 0xD10A0006
def codeRecordBusy : Nat := 0xD10B0001
def codeRecordArea : Nat := 0xD10B0002
def codeReplayMismatch : Nat := 0xD10B0003
def codeReplaying : Nat := 0xD10B0004

/-! ## Holds (R433 to R435) -/

/-- S-beats after the next Hlat W-beats, which the requests already raised fix (R434). -/
def fixedBeats (h : Hold) : Nat :=
  h.sBeat + ((List.range h.hlat.toNat).filter fun i => !(h.hist.getD i noReq).q).length

/-- The debug source requests from this W-beat. -/
def raiseDebug (p : Nat) (s : State) : State :=
  if (getPart s p).hold.debug then s
  else
    let s := updDebug s p fun d => { d with state := 1, since := s.nowNs }
    updHold s p fun h => { h with debug := true, debugAt := h.wBeat }

/-- A freeze at an S-beat count. -/
def armFreeze (p target : Nat) (s : State) : Nat × State :=
  if target < fixedBeats (getPart s p).hold then (codeDebugTooLate, s)
  else (0, updDebug s p fun d => { d with target := some target, state := if (getPart s p).hold.debug then d.state else 1 })

/-- The debug source drops its request (R435); a freeze armed under the hold stands. -/
def dropDebug (p : Nat) (s : State) : State :=
  let q := getPart s p
  if !q.hold.debug then updDebug s p fun d => { d with state := 0, target := none }
  else
    let held := s.nowNs - max q.debugging.since q.step.startNs
    let s := updStep s p fun t => { t with heldNs := t.heldNs + held }
    let s := updDebug s p fun d => { d with state := b2n d.target.isSome }
    updHold s p fun h => { h with debug := false, counted := 0 }

/-- Command 3: a halt that waited aborts the step (R436). -/
def releaseDebug (p : Nat) (s : State) : State :=
  let s := dropDebug p s
  if (getPart s p).hold.frozen && inStep s p then abortStep p (if (firstFault s p).isSome then 1 else 2) s else s

/-- User-mode threads of the partition stand (R435, R438). -/
def usersStopped (s : State) (p : Nat) : Bool :=
  let d := (getPart s p).debugging
  d.state == 3 || (d.state == 2 && d.stopShuttles)

/-! ## Snapshots (R438 to R440) -/

def snapBytes : Nat := 677380096

def snapQuadsOf (s : State) (p : Nat) : List Nat :=
  match (getPart s p).debugging.snapQuads with
  | none => quadsOfPart s p
  | some m => (quadsOfPart s p).filter fun g => bitAt g m.toNat

/-- Two stretches meet. -/
def stretchesMeet (a na b nb : Nat) : Bool := a < b + nb && b < a + na

/-- An area of the ranges of quadrants stays out of `hbm_bytes`, the save area and the reserve (R266, R386, R439). -/
def areaFree (s : State) (p : Nat) (quads : List Nat) (off n : Nat) : Bool :=
  let im := installedImage s p
  let top := hbmQuadBytes s.fuses.variant
  let used := (im.map (·.hbmBytes)).getD 0
  let reserve := if quads.contains (highestQuad s p) then (im.map reserveBytes).getD 0 else 0
  let save := (used + 0xFFFFF) / 0x100000 * 0x100000
  used ≤ off && off + n + reserve ≤ top && !stretchesMeet off n save 4718592

def underDebug (s : State) (p : Nat) : Bool :=
  let q := getPart s p
  q.debugging.state == 2 || q.debugging.state == 3 || q.hold.frozen

/-- Registers whose poison a tile record carries (Table 16-3). -/
def regPoison (t : Tile) : Nat :=
  let mask (n : Nat) (f : Nat → Bool) : Nat := maskOf n f
  let v := t.flights.filter fun f => f.unit == 1
  mask 16 (fun i => (sGet {} i t.s : Pz 32).poison)
    + mask 8 (fun i => (sGet {} i t.v : Pz 128).poison) * 2 ^ 16
    + mask 4 (fun i => (sGet {} i t.m : Pz 16).poison) * 2 ^ 24
    + mask 4 (fun i => (sGet {} i t.arr.stat : Pz 64).poison) * 2 ^ 28
    + mask 4 (fun i => (sGet {} i t.arr.acc : Pz 32).poison) * 2 ^ 32
    + b2n (t.push.sWords.any (·.poison)) * 2 ^ 36 + b2n (t.push.kWords.any (·.poison)) * 2 ^ 37
    + mask 10 (fun i => ((shownPipe t.arr)[i]?.map (·.poison)).getD false) * 2 ^ 38
    + mask 6 (fun i => (v[i]?.map (·.poison)).getD false) * 2 ^ 48

def drainSlotBytes (w : Option DrainWord) : Bytes :=
  match w with
  | none => List.replicate 16 0
  | some w => leBytes 8 w.data.toNat ++ leBytes 8 (w.stream.toNat + w.seq.toNat * 2 ^ 16 + b2n w.poison * 2 ^ 32 + 2 ^ 63)

def outSlotBytes (w : Option OutWord) : Bytes :=
  match w with
  | none => List.replicate 16 0
  | some w =>
    leBytes 8 w.data.toNat ++ leBytes 8 (b2n w.first + b2n w.last * 2 + b2n w.knot * 4 + b2n w.poison * 8 + 2 ^ 63)

def seqBytes (t : Tile) : Bytes := (List.range 16).flatMap fun n => leBytes 2 (sGet 0 n t.drain.seq).toNat

/-- Values that the tile digest covers, in ascending record offset (R440). `win`: the window image. -/
def digestWords (t : Tile) (win : Bytes) : List W64 :=
  let word (o : Nat) : W64 := n64 (ofLe (bytesAt win o 8))
  let entries := t.board.map (·.2)
  let filling (o : Nat) : Bool := entries.any fun e =>
    e.armed && !e.valid && (List.range (e.length.toNat)).any fun i =>
      e.bank.toNat * 1024 + (e.base.toNat + i) % 128 * 8 == o || (e.paired && (e.bank.toNat + 1) * 1024 + (e.base.toNat + i) % 128 * 8 == o)
  let range (lo hi : Nat) : List Nat := (List.range ((hi - lo) / 8)).map fun i => lo + 8 * i
  ((range 0 0x2800).filter fun o => !filling o).map word
    ++ (List.range 16).map (fun i => word (0x2800 + 16 * i) &&& 0x80000000FFFFFFFF)
    ++ ((range 0x3000 0x3400).filter fun o => o ≠ 0x3020 && o ≠ 0x3030 && o ≠ 0x3038 && o ≠ 0x31D0).map word
    ++ (range 0x3400 0x4000).map word
    ++ (List.range 4).map (fun i => n64 (ofLe (bytesAt (seqBytes t) (8 * i) 8)))
    ++ [n64 (regPoison t)]

def digestOf (ws : List W64) : W64 := ws.foldl (fun d v => mix64 (d ^^^ v)) 0

/-- The record of a tile, 0x5000 bytes (Table 16-3), and its digest. -/
def tileRecord (s : State) (x y : Nat) : Bytes × W64 :=
  let t := getTile s (tileKey x y)
  let win := windowBytes s (.tile x y 0) 0x4000
  let d := digestOf (digestWords t win)
  (win ++ ((List.range 16).flatMap fun i => drainSlotBytes t.drain.buf[i]?) ++ fixedBytes 0x20 (seqBytes t) ++ leBytes 4 t.drain.lost.toNat
    ++ List.replicate 0xDC 0 ++ ((List.range 16).flatMap fun i => outSlotBytes t.outQ[i]?) ++ leBytes 8 (regPoison t)
    ++ leBytes 8 t.openMsg.toNat ++ List.replicate 0xCE8 0 ++ leBytes 8 d.toNat, d)

/-- Words of a forwarder, oldest first, 16 bytes each (Tables 8-5 and 16-2). -/
def forwarderBytes (sd : Side) : Bytes :=
  sd.fwd.flatMap fun m => m.words.flatMap fun w =>
    leBytes 8 w.data.toNat ++ leBytes 8 (m.x.toNat % 256 + b2n w.first * 2 ^ 8 + b2n w.last * 2 ^ 9
      + b2n w.knot * 2 ^ 10 + b2n w.poison * 2 ^ 28 + 2 ^ 29)

def snapHeader (s : State) (p g : Nat) : Bytes :=
  let q := getPart s p
  leBytes 4 0x50414E53 ++ leBytes 2 1 ++ leBytes 1 p ++ leBytes 1 g ++ leBytes 8 q.hold.sBeat ++ leBytes 8 q.debugging.snapW
    ++ leBytes 8 q.step.counter.toNat ++ fixedBytes 48 q.pattern.digest

/-- The snapshot of quadrant g, but for its flip-flops (Table 16-2). -/
def snapQuad (p : Nat) (from_ : State) (s : State) (g : Nat) : State :=
  let area := (getPart from_ p).debugging.snapArea.toNat
  let put (o : Nat) (b : Bytes) (s : State) : State := writeHbm g (area + o) b false s
  let s := put 0 (snapHeader from_ p g) s
  let s := ((List.range 32768).zip (tilesOfQuad g)).foldl (fun s e =>
    let (b, d) := tileRecord from_ e.2.1 e.2.2
    put (0x80000 + 8 * e.1) (leBytes 8 d.toNat) (put (0x100000 + 0x5000 * e.1) b s)) s
  (List.range 8).foldl (fun s k =>
    let n := 8 * g + k
    let side := sideOfQuad g k
    let s := put (0x28100000 + 0x50000 * k) (localRead (getShuttle from_ n) 0 0x40000) s
    let s := put (0x28140000 + 0x50000 * k) (windowBytes from_ (.shuttleCtl n 0) 0x10000) s
    let s := put (0x28380000 + 0x10000 * k) (windowBytes from_ (.sideWin side 0) 0x10000) s
    put (0x28400000 + 0x40000 * k) (fixedBytes 0x40000 (forwarderBytes (getSide from_ side))) s) s

/-- The snapshot W-beat: inflow stops, the state is copied and the segments are asked for a capture. -/
def beginSnapshot (p : Nat) (s : State) : State :=
  let s := updDebug s p fun d => { d with state := 3, snapW := (getPart s p).hold.wBeat }
  let qs := snapQuadsOf s p
  let s := qs.foldl (snapQuad p s) s
  qs.foldl (fun s g => requestCapture g s) s

def snapRefusal (s : State) (p : Nat) : Nat :=
  let d := (getPart s p).debugging
  if d.state = 3 then codeSnapshotBusy
  else if d.snapArea.toNat % 0x100000 ≠ 0 || !areaFree s p (snapQuadsOf s p) d.snapArea.toNat snapBytes then codeSnapshotArea
  else 0

/-- An activity begins, at once or when those before it have ended (R452). -/
def beginActivity (r : Running) (s : State) : State :=
  match r.activity with
  | .port => leaveUp r.target 4 7 s
  | .save => (r.parts.head?.map fun p => beginSnapshot p s).getD s
  | .audit => nearFull (compactAudit 160 s)
  | .lace => if r.target < 256 then s else requestCapture (r.target % 256) s
  | _ => s

/-- The activity ends, and those that waited for it begin. -/
def finishActivity (r : Running) (s : State) : State :=
  let (more, s) := endActivity r s
  more.foldl (fun s r => beginActivity r s) s

/-- The activity runs or waits. -/
def takeActivity (r : Running) (s : State) : State :=
  let (runs, s) := startActivity r s
  if runs then beginActivity r s else s

/-- A snapshot starts, or waits for the lock. -/
def startSnapshot (p : Nat) (s : State) : State :=
  takeActivity (saveActivity s p) s

/-- The copy ends (R438): the flip-flops as they were captured. -/
def endSnapshot (p : Nat) (s : State) : State :=
  let d := (getPart s p).debugging
  let qs := snapQuadsOf s p
  if d.state ≠ 3 || qs.any (fun g => (getLace s g).capturePending) then s
  else
    let s := qs.foldl (fun s g => writeHbm g (d.snapArea.toNat + 0x1000) (windowBytes s (.lace g 0x200000) 0x4000) false s) s
    let s := updDebug s p fun d => { d with state := 2, abortWaits := d.abortWaits && d.onHalt = 2 }
    let s := assertEvent (srcDebug p 1) (n64 d.snapW) s
    finishActivity (saveActivity s p) s

/-! ## Commands of Table 16-1 -/

def debugCommand (p v : Nat) (s : State) : Nat × State :=
  let q := getPart s p
  let arg := q.debugging.argument.toNat
  let st := stepState s p
  if v = 0 || 5 < v then (codeValueRange, s)
  else if v ≠ 3 && v ≠ 5 && st ≠ 2 && st ≠ 5 then (codeNotHeld, s)
  else if v = 5 && !underDebug s p then (codeNotHeld, s)
  else if v = 4 && (arg = 0 || 2 ^ 32 ≤ arg) then (codeValueRange, s)
  else
    let ok (r : Nat × State) : Nat × State :=
      if r.1 = 0 then (0, updDebug r.2 p fun d => { d with command := BitVec.ofNat 8 v }) else r
    ok (match v with
      | 1 => (0, raiseDebug p s)
      | 2 => armFreeze p arg s
      | 3 => (0, releaseDebug p s)
      | 4 =>
        let r := armFreeze p (q.hold.sBeat + arg) (dropDebug p s)
        if r.1 = 0 then (0, if q.hold.frozen then releaseDebug p r.2 else r.2) else (r.1, s)
      | _ => if snapRefusal s p = 0 then (0, startSnapshot p s) else (snapRefusal s p, s))

def debugCmd (r : Role) (p v : Nat) (s : State) : Host.Outcome State Fault Refusal :=
  commandBy r (0xA100 + p) 1 v (debugCommand p v) s

def execHoldNow (r : Role) (p : PartNo) (s : State) : Host.Outcome State Fault Refusal := debugCmd r p.val 1 s
def execHoldAtSBeat (r : Role) (p : PartNo) (s : State) : Host.Outcome State Fault Refusal := debugCmd r p.val 2 s
def execDebugRelease (r : Role) (p : PartNo) (s : State) : Host.Outcome State Fault Refusal := debugCmd r p.val 3 s
def execDebugStep (r : Role) (p : PartNo) (s : State) : Host.Outcome State Fault Refusal := debugCmd r p.val 4 s
def execSnapshot (r : Role) (p : PartNo) (s : State) : Host.Outcome State Fault Refusal := debugCmd r p.val 5 s

/-- DEBUG_FREEZE: the W-beat of R434 has come. -/
def execDebugFreeze (p : PartNo) (s : State) : Host.Outcome State Fault Refusal :=
  let q := getPart s p.val
  .next (if partExists s p && !q.hold.debug && q.debugging.target = some (fixedBeats q.hold) then raiseDebug p.val s else s)

def execSnapshotDone (p : PartNo) (s : State) : Host.Outcome State Fault Refusal := .next (endSnapshot p.val s)

/-! ## The freeze of a halt (R211, R436, R437) -/

def haltFreezes (p : Nat) (s : State) : State :=
  let s := freeze p s
  let d := (getPart s p).debugging
  let s := updDebug s p fun d => { d with firstFault := firstFaultBytes s p }
  if (getPart s p).hold.debug then updDebug s p fun d => { d with abortWaits := true }
  else if d.onHalt = 2 then
    let s := updHold s p fun h => { h with debug := true, debugAt := h.wBeat }
    let s := updDebug s p fun d => { d with state := 2, abortWaits := true, since := s.nowNs }
    assertEvent (srcDebug p 0) (n64 (getPart s p).hold.sBeat) s
  else if d.onHalt = 1 && snapRefusal s p = 0 then startSnapshot p (updDebug s p fun d => { d with abortWaits := true })
  else s

def execHaltFreeze (p : PartNo) (s : State) : Host.Outcome State Fault Refusal :=
  let h := (getPart s p).hold
  .next (if partExists s p && h.haltAt.isSome && !h.frozen && haltInForce h then haltFreezes p.val s else s)

/-! ## Knots by hand (R441) -/

/-- The knot with its value written; `waiters` stays, and so does the name of an owning tile. -/
def handKnot (v : Nat) (k : Knot) : Knot :=
  let locked := bits 33 32 v = 1
  { k with count := BitVec.ofNat 16 (bits 15 0 v), gen := BitVec.ofNat 16 (bits 31 16 v), state := BitVec.ofNat 2 (bits 33 32 v)
           owner := if locked && !bitAt 48 v then BitVec.ofNat 12 (bits 47 36 v) else 0
           ownerTile := locked && bitAt 48 v }

/-- The owner of a locked value lies in the partition. `home`: coordinates of a tile's knot, which only its own tile owns. -/
def handOwner (s : State) (p v : Nat) (home : Option (Nat × Nat)) (k : Knot) : Bool :=
  if bits 33 32 v ≠ 1 then true
  else if bitAt 48 v then
    (match home with
    | some _ => true
    | none => ownerOf s (quadOf k.ownerX.toNat k.ownerY.toNat) == p)
  else ownerOfShuttle s (bits 47 36 v / 16) == p

/-- The knot at an address takes a value. -/
def applyKnot (p : Nat) (addr value : W64) (s : State) : Nat × State :=
  let v := value.toNat
  let r := classify s.fuses.variant (bits 47 0 addr.toNat)
  if !handleIsHere s addr || !reaches s p r then (codeRoleRefused, s)
  else
    let kept (s : State) : State :=
      stampInput p addr.toNat (leBytes 8 addr.toNat ++ leBytes 8 v)
        (updDebug s p fun d => { d with knotSet := leBytes 8 addr.toNat ++ leBytes 8 v })
    match homeOf r with
    | .tileKnot x y k =>
      let t := getTile s (tileKey x y)
      let old : Knot := sGet {} k t.knots
      if bits 33 32 v = 3 || !handOwner s p v (some (x, y)) old then (codeValueRange, s)
      else
        let new := handKnot v old
        let new := if new.ownerTile then { new with ownerX := BitVec.ofNat 10 x, ownerY := BitVec.ofNat 10 y } else new
        (0, kept (putTile s (tileKey x y) { t with knots := sPut {} k new t.knots }))
    | .shuttleKnot n k =>
      let h := getShuttle s n
      let old : Knot := sGet {} k h.knots
      if bits 33 32 v = 3 || !handOwner s p v none old then (codeValueRange, s)
      else (0, wakeShuttle n (kept (putShuttle s n { h with knots := sPut {} k (handKnot v old) h.knots })))
    | _ => (codeValueRange, s)

def setKnot (p : Nat) (addr value : W64) (s : State) : Nat × State :=
  if !(underDebug s p && ((getPart s p).hold.debug || (getPart s p).debugging.onHalt = 2)) then (codeNotHeld, s)
  else applyKnot p addr value s

def execKnotSet (r : Role) (p : PartNo) (addr value : W64) (s : State) : Host.Outcome State Fault Refusal :=
  .next (roleRequest none r (0xA100 + p.val) 9 (leBytes 8 addr.toNat ++ leBytes 8 value.toNat) (setKnot p.val addr value) s)

/-! ## Recording and replay (R443 to R450) -/

def recordAreaFree (s : State) (p : Nat) : Bool :=
  let q := getPart s p
  let off := q.recd.areaOffset.toNat
  let n := q.recd.areaBytes.toNat
  let g := lowestQuad s p
  256 ≤ n && areaFree s p [g] off n
    && !((snapQuadsOf s p).contains g && stretchesMeet off n q.debugging.snapArea.toNat snapBytes)

/-- Bytes that the header and its entries take. -/
def recordingEnd (entries : Nat) : Bytes → Nat
  | b => 256 + go entries (b.drop 256)
where
  go : Nat → Bytes → Nat
    | 0, _ => 0
    | n + 1, b => let size := (32 + bits 48 32 (ofLe (bytesAt b 0 8)) + 31) / 32 * 32
                  size + go n (b.drop size)

/-- Header bytes and where they stand of the first field that differs from the partition's (R447). -/
def headerMismatch (s : State) (p : Nat) (h : Bytes) : Option Nat :=
  let q := (getPart s p).pattern
  let same (o : Nat) (b : Bytes) : Bool := bytesAt h o b.length == b
  let fields : List (Nat × Bytes) :=
    [(7, leBytes 1 (variantIx s.fuses.variant)), (16, leBytes 8 q.seedInForce.toNat), (24, placementBytes s p), (32, fixedBytes 48 q.digest),
     (80, fixedBytes 48 s.sec.fw.activeDigest), (128, laceDigests s p)]
  (fields.find? fun f => !same f.1 f.2).map (·.1)

/-- Step counter and lineage of the header and of each step mark. -/
def replayPoints (h : Bytes) (es : List RecEntry) : List (Nat × Bytes) :=
  (ofLe (bytesAt h 8 8), bytesAt h 176 48) :: (es.filter fun e => e.kind == 8).map fun e => (e.step, bytesAt e.payload 0 48)

def startReplay (p : Nat) (s : State) : Nat × State :=
  let st := (getPart s p).recd.state
  if st = 1 || st = 2 then (codeRecordBusy, s)
  else if stepState s p ≠ 4 then (codePartitionBusy, s)
  else
    let head := recordBytes s p 0 256
    let used := recordingEnd (ofLe (bytesAt head 224 8)) (recordBytes s p 0 (getPart s p).recd.areaBytes.toNat)
    let s' := updRecd s p fun r => { r with used := used, entries := ofLe (bytesAt head 224 8) }
    let es := recordedEntries s' p
    let q := (getPart s p).step
    let here := (q.counter.toNat, fixedBytes 48 q.lineage)
    let kept := q.checkpoints.any fun c => c.complete && (c.rec_.counter.toNat, fixedBytes 48 c.rec_.lineage) == here
    match headerMismatch s' p head, installedImage s p with
    | some o, _ => (codeReplayMismatch, updRecd s p fun r => { r with mismatch := BitVec.ofNat 32 o })
    | none, none => (codeReplayMismatch, s)
    | none, some im =>
      if !kept || !(replayPoints head es).contains here then
        (codeReplayMismatch, updRecd s p fun r => { r with mismatch := 8 })
      else
        let past := ((List.range es.length).zip es).filter fun e =>
          if e.2.kind = 8 then e.2.step ≤ q.counter.toNat else e.2.step < q.counter.toNat
        let last := ofLe (bytesAt head 232 8)
        let s' := updRecd s' p fun r => { r with state := 2, consumed := past.map (·.1), waiting := [], mark := n64 last }
        let s' := updStep s' p fun q => { q with target := n64 last }
        (0, startStep p im s')

def recordCommand (p v : Nat) (s : State) : Nat × State :=
  let r := (getPart s p).recd
  let note (s : State) : Nat × State := (0, updRecd s p fun r => { r with command := BitVec.ofNat 8 v })
  match v with
  | 1 =>
    if r.state = 1 || r.state = 2 || r.arming then (codeRecordBusy, s)
    else if !recordAreaFree s p then (codeRecordArea, s)
    else note (updRecd s p fun r => { r with arming := true })
  | 2 => note (updRecd s p fun r => if r.state = 1 then { r with ending := true } else { r with arming := false })
  | 3 =>
    let (c, s) := startReplay p s
    if c = 0 then note s else (c, s)
  | 4 => note (noStamp p (updRecd s p fun r => if r.state = 2 then { r with state := 0, consumed := [], waiting := [] } else r))
  | _ => (codeValueRange, s)

def recordCmd (r : Role) (p v : Nat) (s : State) : Host.Outcome State Fault Refusal :=
  commandBy r (0xB010 + p) 1 v (recordCommand p v) s

def execRecordArm (r : Role) (p : PartNo) (s : State) : Host.Outcome State Fault Refusal := recordCmd r p.val 1 s
def execRecordEnd (r : Role) (p : PartNo) (s : State) : Host.Outcome State Fault Refusal := recordCmd r p.val 2 s
def execReplayStart (r : Role) (p : PartNo) (s : State) : Host.Outcome State Fault Refusal := recordCmd r p.val 3 s
def execReplayAbandon (r : Role) (p : PartNo) (s : State) : Host.Outcome State Fault Refusal := recordCmd r p.val 4 s

/-- A recording is imported (Table 16-8). -/
def writeRecordData (p : Nat) (data : Bytes) (s : State) : Nat × State :=
  let r := (getPart s p).recd
  if r.state = 1 || r.state = 2 then (codeRecordBusy, s)
  else if r.areaBytes.toNat < data.length then (codeRecordArea, s)
  else (0, updRecd (putRecordBytes p 0 data s) p fun r => { r with used := data.length })

def execRecordDataWrite (r : Role) (p : PartNo) (data : Bytes) (s : State) : Host.Outcome State Fault Refusal :=
  .next (roleRequest none r (0xB010 + p.val) 5 data (writeRecordData p.val data) s)

/-- REPLAY_STALL (R450): a local sender has waited `replay.stall_ns` while another waits at the same target. -/
def replayStalls (s : State) (p : Nat) : Bool :=
  let r := (getPart s p).recd
  replaying s p && r.waiting.any fun a =>
    decide (a.2.2 + r.stallNs.toNat ≤ s.nowNs) && r.waiting.any fun b => b.1 == a.1 && b.2.1 ≠ a.2.1

def execReplayStall (p : PartNo) (s : State) : Host.Outcome State Fault Refusal :=
  .next (if replayStalls s p.val then diverge p.val (n64 (2 ^ 34)) s else s)

end Sys2Proof.Machine
end

