-- ==== Sys2Proof/Machine/Clocks.lean ====
section
/-! DEFINITION. Monitors, change points, beat changes and power (13 R348 to R357). -/

namespace Sys2Proof.Machine

/-! ## Monitors (R349, R350, R473) -/

def monitorCode (codes : W16) (i : Nat) : Nat := bits (4 * i + 3) (4 * i) codes.toNat

def leastCode (codes : W16) : Nat := min (min (monitorCode codes 0) (monitorCode codes 1)) (min (monitorCode codes 2) (monitorCode codes 3))

/-- Quadrant of a global region (R348). -/
def quadOfRegion (r : Nat) : Nat := r / 32 * 4 + r % 32 / 8 / 2 * 2 + r % 8 / 4

/-- A report of the four monitors of a region and its hottest sensor. -/
def reportMonitors (r : Nat) (codes : W16) (celsius : Byte) (s : State) : State :=
  let p := ownerOf s (quadOfRegion r)
  let hot := decide ((getPart s p).clock.throttle.toInt ≤ celsius.toInt)
  if r / 32 < diesOf s.fuses.variant then
    updRegion r (fun q =>
      { q with monitors := codes, temperature := celsius, least := BitVec.ofNat 4 (min q.least.toNat (leastCode codes))
               hot := q.hot || hot, zero := q.zero || leastCode codes == 0 }) s
  else s

def execMonitorReport (r : RegionNo) (codes : W16) (celsius : Byte) (s : State) : Host.Outcome State Fault Refusal :=
  .next (reportMonitors r.val codes celsius s)

/-! ## Change points (R350 to R352, R356) -/

/-- The region demands a slowdown. -/
def regionDemands (q : ClockRegion) : Bool := q.least.toNat < 3 || q.hot

/-- What a region counts at a change point; its interval begins anew. -/
def regionPoint (q : ClockRegion) : ClockRegion :=
  { q with above := if 9 < q.least.toNat && !regionDemands q then satAdd 8 q.above 1 else 0
           margin := q.least.setWidth 8, critical := if q.zero then q.critical + 1 else q.critical
           least := 15, hot := false, zero := false }

/-- Energy of the interval, which the fuses' coefficients give (R356): a free value (log 5). -/
def addEstimate (p : Nat) (s : State) : State :=
  let (n, s) := takeFree s
  let e := (Config.energy n :: (getPart s p).clock.energies).take 16
  updClock s p fun c => { c with energies := e, estimate := BitVec.ofNat 16 (min 65535 (e.sum / e.length)) }

def ceilingOf (s : State) (p : Nat) : Nat :=
  let a := (getPart s p).active
  if s.pack.power.protect = 0 then a.ceiling.toNat else a.floor.toNat

/-- Table 13-2: the change that a decision at change point n makes pending. A case 1 whose change is pending already lets it
stand. -/
def decide_ (s : State) (p : Nat) (demand permit : Bool) : Option Nat :=
  let q := getPart s p
  let b := q.clock.beat.toNat
  let lo := q.active.floor.toNat
  let hi := ceilingOf s p
  let pend := q.clock.pending.map (·.toNat)
  let slower := match pend with
    | some v => v < b
    | none => false
  if b < lo || hi < b then
    let v := if b < lo then lo else hi
    if pend = some v then none else some v
  else if demand then (if slower || b ≤ lo then none else some (b - 1))
  else if permit && pend.isNone then (if b < hi then some (b + 1) else none)
  else none

/-- The change source requests from this W-beat, where a change is due (R353). -/
def raiseChange (p n : Nat) (s : State) : State :=
  let q := getPart s p
  if q.clock.pending.isSome && q.clock.due.toNat ≤ n && q.clock.changeFrom.isNone then
    let s := updClock s p fun c => { c with changeFrom := some q.hold.wBeat, switched := false }
    updHold s p fun h => { h with change := true }
  else s

/-- Change point n. -/
def changePoint (p n : Nat) (s : State) : State :=
  let s := raiseChange p n s
  let rs := regionsOfPart s p
  let demand := rs.any fun r => regionDemands (getRegion s r)
  let zeros := rs.filter fun r => (getRegion s r).zero
  let s := rs.foldl (fun s r => updRegion r regionPoint s) s
  let s := zeros.foldl (fun s r => assertEvent (srcQuad (quadOfRegion r) 5) (n64 r) s) s
  let permit := rs.all fun r => 16 ≤ (getRegion s r).above.toNat
  let s := addEstimate p s
  let c := (getPart s p).clock
  let above := decide (c.share.toNat < c.estimate.toNat)
  let under := decide (c.estimate.toNat * 100 ≤ c.share.toNat * 85)
  let s := updClock s p fun c => { c with decided := n }
  match decide_ s p (demand || above) (permit && under) with
  | none => s
  | some v => updClock s p fun c => { c with pending := some (BitVec.ofNat 8 v), due := n64 (n + 2) }

/-- The partition is about to execute the S-beat of a change point that it has not passed. -/
def atChangePoint (s : State) (p : Nat) : Bool :=
  let q := getPart s p
  executes q.hold && q.hold.sBeat % 8192 == 0 && q.clock.decided < q.hold.sBeat / 8192

def execChangePoint (p : PartNo) (s : State) : Host.Outcome State Fault Refusal :=
  .next (if partExists s p && atChangePoint s p.val then changePoint p.val ((getPart s p).hold.sBeat / 8192) s else s)

/-! ## The switch (R353) -/

/-- Another source requested, or the partition halted, after W-beat c and before this one. -/
def changeDisturbed (h : Hold) (c : Nat) : Bool :=
  let n := h.wBeat - (c + 1)
  (h.hist.take n).any (fun r => r.q && r.cause ≠ 6) || (h.debug && c < h.debugAt) || h.haltAt.isSome

/-- The switch, or its deferral. -/
def switchBeat (p c : Nat) (s : State) : State :=
  let q := getPart s p
  let s := updClock s p fun k => { k with switched := true }
  match q.clock.pending with
  | none => s
  | some v =>
    if changeDisturbed q.hold c then updClock s p fun k => { k with deferred := k.deferred + 1 }
    else if q.clock.decided + 1 < q.clock.due.toNat then s
    else
      let faster := q.clock.beat.toNat < v.toNat
      let s := updClock s p fun k => { k with
        beat := v, pending := none, lastChange := n64 (c + q.hold.hlat.toNat + 96)
        up := if faster then k.up + 1 else k.up, down := if faster then k.down else k.down + 1 }
      (regionsOfPart s p).foldl (fun s r => updRegion r (fun g => { g with above := 0 }) s) s

def execBeatSwitch (p : PartNo) (s : State) : Host.Outcome State Fault Refusal :=
  let q := getPart s p
  .next (match q.clock.changeFrom with
    | some c => if !q.clock.switched && c + q.hold.hlat.toNat + 96 ≤ q.hold.wBeat then switchBeat p.val c s else s
    | none => s)

/-! ## Power (R355, R357) -/

def setPower (s : State) (f : Power → Power) : State := { s with pack := { s.pack with power := f s.pack.power } }

def powerLimit (s : State) : Nat := (s.pack.power.limit.map (·.toNat)).getD (envelopeW s.fuses.variant)

/-- R357. -/
def powerSample (watts : W16) (s : State) : State :=
  let above := if powerLimit s < watts.toNat then s.pack.power.above + 1 else 0
  let s := setPower s fun w => { w with package := watts, above := above }
  if above ≠ 4 || s.pack.power.protect ≠ 0 then s
  else
    let s := setPower s fun w => { w with protect := 1, events := w.events + 1 }
    auditEvent 4 0 kindEvent 0x2200 5 0 (leBytes 2 watts.toNat) (assertEvent 0x300 (watts.setWidth 64) s)

def execPowerSample (watts : W16) (s : State) : Host.Outcome State Fault Refusal := .next (powerSample watts s)

/-- `power.quadrant_max_w` by beat code, from the fuses. -/
def quadMaxW (s : State) (code : Nat) : Nat := (sGet 0 code s.fuses.quadMaxW).toNat

/-- The limits of R355 hold, but for the range of `power.limit_w`. -/
def budgetHolds (s : State) : Bool :=
  let shares := (List.range 17).map fun p => if p = 0 then 0 else (getPart s p).clock.share.toNat
  decide (s.fuses.fixedW.toNat + shares.sum ≤ powerLimit s)
    && (List.range 17).all fun p => p == 0
      || decide ((quadsOfPart s p).length * quadMaxW s (getPart s p).active.floor.toNat ≤ (getPart s p).clock.share.toNat)

/-- A write of `power.limit_w`. -/
def writeLimit (v : W16) (s : State) : Nat × State :=
  let env := envelopeW s.fuses.variant
  if v.toNat * 4 < env || env < v.toNat then (codeValueRange, s)
  else
    let s' := setPower s fun w => { w with limit := some v }
    if budgetHolds s' then (0, s') else (codePowerBudget, s)

/-- A write of `power.share_w`. -/
def writeShare (p : Nat) (v : W16) (s : State) : Nat × State :=
  let s' := updClock s p fun c => { c with share := v }
  if budgetHolds s' then (0, s') else (codePowerBudget, s)

/-- A write of `power.protect`: 0 ends protection. -/
def writeProtect (v : Nat) (s : State) : Nat × State :=
  if v ≠ 0 then (codeValueRange, s) else (0, setPower s fun w => { w with protect := 0 })

def execPowerProtectClear (r : Role) (s : State) : Host.Outcome State Fault Refusal :=
  .next (roleRequest none r 0x2200 5 [0] (writeProtect 0) s)

def execPowerLimitWrite (r : Role) (share : Option PartNo) (watts : W16) (s : State) : Host.Outcome State Fault Refusal :=
  .next (match share with
    | none =>
      roleRequest none r 0x2200 1 (leBytes 2 watts.toNat) (storedEffect 0x2200 1 (leBytes 2 (powerLimit s)) (writeLimit watts)) s
    | some p =>
      roleRequest none r (0x2310 + p.val) 9 (leBytes 2 watts.toNat)
        (storedEffect (0x2310 + p.val) 9 (leBytes 2 (getPart s p.val).clock.share.toNat) (writeShare p.val watts)) s)

end Sys2Proof.Machine
end

