-- ==== Sys2Proof/Machine/Configure.lean ====
section
/-! DEFINITION. The configuration of partitions: its checks, the commit and the move of saves (07 R206, 14 R368 to R372). -/

namespace Sys2Proof.Machine

def codeConfigQuadrant : Nat := 0xD1030003
def codeConfigShape : Nat := 0xD1030004
def codeConfigHlat : Nat := 0xD1030005
def codeConfigBeat : Nat := 0xD1030006
def codeConfigPort : Nat := 0xD1030007
def codeConfigSave : Nat := 0xD1030008

/-! ## Shape and hold latency (R206, R369 checks 3 and 4) -/

/-- The seam unit that two adjacent quadrants share an edge on, none inside a die (Table 13-4, P7). -/
def seamOf (a b : Nat) : Option Nat :=
  let d := a / 4
  let e := b / 4
  if d = e then none else if d / 2 = e / 2 then some (d / 2) else some (4 + min d e)

def adjacentQuads (a b : Nat) : Bool :=
  let (c, r) := placeOfQuad a
  let (d, q) := placeOfQuad b
  (r == q && (c + 1 == d || d + 1 == c)) || (c == d && (r + 1 == q || q + 1 == r))

def seamCut (cut : Nat) (a b : Nat) : Bool :=
  match seamOf a b with
  | some u => bitAt u cut
  | none => false

/-- Two quadrants share an edge that counts. -/
def joined (cut : Nat) (a b : Nat) : Bool := adjacentQuads a b && !seamCut cut a b

/-- Seams between the quadrants of `qs` and a first one: quadrants reached so far with their least number of seams, one edge more in
each round (log 24). -/
def seamsFrom (cut : Nat) (qs : List Nat) : Nat → List (Nat × Nat) → List (Nat × Nat)
  | 0, m => m
  | n + 1, m =>
    seamsFrom cut qs n (qs.filterMap fun g =>
      let here := (m.find? fun e => e.1 == g).map (·.2)
      let via := m.filterMap fun e => if joined cut e.1 g then some (e.2 + b2n (seamOf e.1 g).isSome) else none
      (via ++ here.toList).min?.map fun v => (g, v))

/-- The quadrants that a quadrant reaches inside the set, with their seams. -/
def reachOf (cut : Nat) (qs : List Nat) (g : Nat) : List (Nat × Nat) := seamsFrom cut qs 32 [(g, 0)]

/-- R206. -/
def hlatOf (cut : Nat) (qs : List Nat) : Nat :=
  24 + 8 * (qs.foldl (fun a g => (reachOf cut qs g).foldl (fun a e => max a e.2) a) 0)

/-- Check 3: its detail, none when it passes. -/
def badShape (cut : Nat) (qs : List Nat) : Option Nat :=
  match qs with
  | [] => none
  | g :: _ =>
    match qs.find? fun h => !(reachOf cut qs g).any fun e => e.1 == h with
    | some h => some h
    | none => (qs.find? fun a => qs.any fun b => adjacentQuads a b && seamCut cut a b)

/-! ## The checks of Table 14-2 (R369) -/

def stagedQuads (s : State) (p : Nat) : List Nat := (List.range 32).filter fun g => bitAt g (getPart s p).staged.quads.toNat
def activeQuads (s : State) (p : Nat) : List Nat := (List.range 32).filter fun g => bitAt g (getPart s p).active.quads.toNat

def partNumbers : List Nat := (List.range 16).map (· + 1)

def changedParts (s : State) : List Nat := partNumbers.filter fun p => (getPart s p).staged ≠ (getPart s p).active

/-- Whether a part's quadrants, key or ports are to change. -/
def quadsChange (s : State) (p : Nat) : Bool := (getPart s p).staged.quads ≠ (getPart s p).active.quads
def keyChanges (s : State) (p : Nat) : Bool := fixedBytes 97 (getPart s p).staged.key ≠ fixedBytes 97 (getPart s p).active.key

/-- Every staged configuration in force. -/
def withStaged (s : State) : State := partNumbers.foldl (fun s p => updPart s p fun q => { q with active := q.staged }) s

/-- Check n for partition p: its code and detail, none when it passes. -/
def configCheck (s : State) (n p : Nat) : Option (Nat × Nat) :=
  let q := getPart s p
  let st := q.step.state.toNat
  let qs := stagedQuads s p
  let cut := s.pack.start.seamsCut.toNat
  let fail (c d : Nat) (bad : Bool) : Option (Nat × Nat) := if bad then some (c, d) else none
  match n with
  | 1 =>
    fail codeConfigBusy 0
      (((quadsChange s p || keyChanges s p) && !(st == 0 || (st == 7 && !keyChanges s p)))
        || ((q.staged.ports ≠ q.active.ports || q.staged.vf ≠ q.active.vf) && (st == 2 || st == 3 || st == 5)))
  | 2 =>
    (qs.find? fun g => quadsOf s.fuses.variant ≤ g || bitAt (g % 4) (sGet {} (g / 4) s.pack.start.dies : Die).unavailable.toNat
      || partNumbers.any fun o => o ≠ p && (stagedQuads s o).contains g).map fun g => (codeConfigQuadrant, g)
  | 3 => (badShape cut qs).map fun g => (codeConfigShape, g)
  | 4 => fail codeConfigHlat (hlatOf cut qs) (64 < hlatOf cut qs)
  | 5 =>
    let f := q.staged.floor.toNat
    let c := q.staged.ceiling.toNat
    fail codeConfigBeat 0 (c < f || 24 < c || (s.sec.caerec.approved && f ≠ c))
  | 6 =>
    (qs.find? fun g => (activeQuads s p).contains g && (getLace s g).state = 2
      && !withinFmax q.staged.ceiling.toNat (getLace s g).ratio.toNat (getLace s g).fmaxKhz.toNat).map fun g => (codeLaceFmax, g)
  | 7 => fail codePowerBudget 0 (!budgetHolds (withStaged s))
  | 8 =>
    ((List.range 16).find? fun k => bitAt k q.staged.ports.toNat
      && (!portFitted s.fuses.variant k || partNumbers.any fun o => o ≠ p && bitAt k (getPart s o).staged.ports.toNat)).map
      fun k => (codeConfigPort, k)
  | _ =>
    let old := activeQuads s p
    fail codeConfigSave 0 (st == 7 && quadsChange s p
      && (old.length ≠ qs.length || old.any fun g => qs.contains g && old.findIdx? (· == g) ≠ qs.findIdx? (· == g)))

/-- The first check that fails: code, partition, detail. -/
def configRefusal (s : State) : Option (Nat × Nat × Nat) :=
  let ps := changedParts s
  ((List.range 9).flatMap fun n => ps.filterMap fun p => (configCheck s (n + 1) p).map fun e => (e.1, p, e.2)).head?

/-! ## The commit (R370 to R372) -/

def setConfig (s : State) (f : ConfigState → ConfigState) : State := setSec s fun c => { c with config := f c.config }

/-- R371. -/
def clearQuad (g : Nat) (s : State) : State :=
  let s := (tilesOfQuad g).foldl (fun s e =>
    let k := tileKey e.1 e.2
    putTile s k { repaired := (getTile s k).repaired }) s
  let s := (List.range 8).foldl (fun s k => putShuttle s (8 * g + k) {}) s
  let s := (sidesOfQuad g).foldl (fun s k => putSide s k {}) s
  emptyLace g s

/-- Regions of quadrants gate: the partition is idle (R359). -/
def gateQuad (g : Nat) (s : State) : State :=
  (List.range 256).foldl (fun s r => if quadOfRegion r = g then setGate r 0 s else s) s

def newOwner (s : State) (g : Nat) : Nat := ownerOf (withStaged s) g

/-- The HBM of a saved partition's old quadrants as its new ones hold it, of equal rank (R372). -/
def moveSaved (before : State) (p : Nat) (s : State) : State :=
  ((activeQuads before p).zip (stagedQuads before p)).foldl (fun s e =>
    if e.1 = e.2 then s else putHbm s e.2 (getHbm before e.1)) s

/-- Entries of class 2 at their defaults (R406). -/
def defaultClass2 (q : Part) : Part :=
  { q with
    hold := { q.hold with limit := 0x1000000 }
    sync := { q.sync with interval := 256 }
    pattern := { q.pattern with expected := [], seed := 0 }
    step := { q.step with retryLimit := 2, interval := 0, timeoutNs := 0 }
    debugging := { q.debugging with onHalt := 0, stopShuttles := false, snapArea := 0, snapQuads := none }
    recd := { q.recd with areaOffset := 0, areaBytes := 0 } }

/-- The code in force is never below the floor, and an idle partition passes no change point that would raise it (R347, log 108). -/
def raisedTo (floor beat : Byte) : Byte := if beat.toNat < floor.toNat then floor else beat

/-- Step 5: a port that changes partition loses its packets. -/
def dropPort (k : Nat) (s : State) : State :=
  let s := updPort s k fun q => { q with replay := [], flows := [] }
  { s with routes := sMap {} (fun r => { r with retained := r.retained.filter fun t => t.port.toNat ≠ k }) s.routes }

/-- The staged configurations come into force. -/
def commit (s : State) : State :=
  let before := s
  let ps := changedParts before
  let moved := (List.range (quadsOf before.fuses.variant)).filter fun g => ownerOf before g ≠ newOwner before g
  let saved := ps.filter fun p => (getPart before p).step.state = 7 && quadsChange before p
  let leaving := fun g => saved.contains (ownerOf before g)
  let s := (moved.filter fun g => !leaving g).foldl (fun s g => gateQuad g (clearQuad g s)) s
  let s := (moved.filter leaving).foldl (fun s g => gateQuad g s) s
  let rekeyed := ps.filter fun p => (quadsChange before p || keyChanges before p) && (getPart before p).step.state ≠ 7
  let s := rekeyed.foldl (fun s p =>
    (stagedQuads before p).foldl (fun s g => rekeyHbm g s) (updPart s p fun q => { q with keyEpoch := q.keyEpoch + 1 })) s
  let joins := moved.any fun g => ownerOf before g = 0 || newOwner before g = 0
  let s := if joins then
      ((List.range (quadsOf before.fuses.variant)).filter fun g => newOwner before g = 0 && !leaving g).foldl (fun s g => rekeyHbm g s) s
    else s
  let s := saved.foldl (fun s p => moveSaved before p s) s
  let s := setConfig s fun c => { c with
    moves := saved.foldl (fun m p => sPut 0 p (getPart before p).active.quads m) c.moves }
  let s := ps.foldl (fun s p => updPart s p fun q =>
    let q := defaultClass2 q
    { q with active := q.staged
             hold := { q.hold with hlat := BitVec.ofNat 8 (hlatOf before.pack.start.seamsCut.toNat (stagedQuads before p)) }
             clock := (if partIdle s p then { q.clock with beat := raisedTo q.staged.floor q.clock.beat } else q.clock)
             step := { q.step with reeval := q.step.reeval || q.staged.floor ≠ q.active.floor } }) s
  let s := ((List.range 12).filter fun k => portOwner before k ≠ portOwner s k).foldl (fun s k => dropPort k s) s
  let s := ringsAfterCommit (rerouted before s)
  let s := auditEvent 4 0 kindEvent 0x3000 1 0 [1] s
  setConfig s fun c => { c with generation := c.generation + 1, state := if c.moves.isEmpty then 0 else 2, refusal := [] }

def configDone (code : Nat) (s : State) : State := assertEvent 0x308 (n64 code) s

/-- `config.command` (R368). -/
def configCommand (v : Nat) (s : State) : Nat × State :=
  match v with
  | 1 =>
    if s.sec.config.state ≠ 0 then (codeConfigBusy, s)
    else match configRefusal s with
    | some (code, p, d) =>
      (code, configDone code (setConfig s fun c => { c with refusal := leBytes 8 (code + p * 2 ^ 32) ++ leBytes 8 d }))
    | none => (0, configDone 0 (commit s))
  | 2 => (0, partNumbers.foldl (fun s p => updPart s p fun q => { q with staged := q.active }) s)
  | _ => (codeValueRange, s)

def execConfigCommit (r : Role) (s : State) : Host.Outcome State Fault Refusal := commandBy r 0x3000 1 1 (configCommand 1) s
def execConfigDiscard (r : Role) (s : State) : Host.Outcome State Fault Refusal := commandBy r 0x3000 1 2 (configCommand 2) s

/-- The copy of a saved partition ends: the quadrants it has left are cleared (R372). -/
def moveComplete (p : Nat) (s : State) : State :=
  let old := sGet (0 : W32) p s.sec.config.moves
  if old = 0 then s
  else
    let left := ((List.range 32).filter fun g => bitAt g old.toNat).filter fun g => ownerOf s g ≠ p
    let s := left.foldl (fun s g => clearQuad g s) s
    let s := (left.filter fun g => ownerOf s g = 0).foldl (fun s g => rekeyHbm g s) s
    setConfig s fun c =>
      let m := sPut 0 p 0 c.moves
      { c with moves := m, state := if m.isEmpty then 0 else 2 }

def execSaveMoveComplete (p : PartNo) (s : State) : Host.Outcome State Fault Refusal := .next (moveComplete p.val s)

end Sys2Proof.Machine
end

