-- ==== Sys2Proof/Machine/Security.lean ====
section
/-! DEFINITION. Credentials and grants, approved mode, zeroisation, module errors, seals, attestation, the audit log's commands and
firmware (14 R381 to R400). -/

namespace Sys2Proof.Machine

/-- A new key for the HBM of every quadrant. -/
def rekeyAll (s : State) : State := (List.range (quadsOf s.fuses.variant)).foldl (fun s g => rekeyHbm g s) s

/-- R395, R387: every partition is in `step.state` 0. -/
def allUnloaded (s : State) : Bool := partNumbers.all fun p => stepState s p == 0

/-! ## The installer's key (R381) -/

/-- The package holds no installer key. -/
def delivered (s : State) : Bool := allZero s.sec.roles.installerKey

/-- The key is written; with the first one the module makes its seal key. -/
def writeInstallerKey (key : Bytes) (s : State) : Nat × State :=
  let s := setRoles s fun r => { r with installerKey := if allZero key then [] else key }
  if s.sec.caerec.sealKey ≠ [] then (0, s)
  else
    let (k, s) := moduleKey s
    (0, queueFlash .keyStore (setCaerec s fun c => { c with sealKey := k }))

/-- The one unsigned write that the delivered state accepts. -/
def unsignedKey (tr : Option Transport) (key : Bytes) (s : State) : State :=
  let code := if notStarted s 0x1100 then codeNotStarted
    else if moduleDown s then codeModuleError
    else if !delivered s then codeBadSignature
    else if auditBlocked s then codeAuditFull
    else if key.length ≠ 97 then codeTypeLength
    else 0
  let (code, s) := if code = 0 then storedEffect 0x1100 1 (List.replicate 97 0) (writeInstallerKey key) s else (code, s)
  let s := if reachesAudit code then
      auditAppend { role := 0, part := 0, transport := transportCode tr, index := 0x1100, sub := 1, kind := kindWrite, result := code, value := key } s
    else s
  answer code [] s

def execInstallerKeyWrite (signed : Bool) (key : Bytes) (s : State) : Host.Outcome State Fault Refusal :=
  .next (if signed then
      roleRequest none .installer 0x1100 1 key (storedEffect 0x1100 1 (fixedBytes 97 s.sec.roles.installerKey) (writeInstallerKey key)) s
    else unsignedKey none key s)

/-! ## Maker grants (R383) -/

def hours72 : Nat := 72 * 3600 * 1000000000

/-- A grant in force ends, and its event says when. -/
def endGrant (s : State) : State :=
  if s.sec.roles.grant = [] then s
  else assertEvent 0x30B s.rackNs (setRoles s fun r => { r with grant := [] })

/-- Partitions of a grant's mask, ascending: bit p for partition p. -/
def grantParts (g : Bytes) : List Nat := (List.range 32).filter fun i => bitAt i (ofLe (bytesAt g 56 4))

/-- Signature i of a grant. -/
def grantSig (g : Bytes) (i : Nat) : Bytes := bytesAt g (64 + 96 * i) 96

/-- The countersignature of every partition of the mask. -/
def countersigned (s : State) (g : Bytes) : Bool :=
  let ps := grantParts g
  ((List.range ps.length).zip ps).all fun e => sigOk (getPart s e.2).active.key (bytesAt g 0 64) (grantSig g (e.1 + 1))

def grantRefusal (g : Bytes) (s : State) : Nat :=
  let ps := grantParts g
  let expiry := ofLe (bytesAt g 48 8)
  if g.length ≠ 160 + 96 * ps.length then codeTypeLength
  else if ofLe (bytesAt g 60 4) ≠ 0 || ps.any (fun p => p = 0 || 16 < p) then codeReserved
  else if s.rackNs.toNat + hours72 < expiry then codeValueRange
  else if !sigOk s.sec.roles.installerKey (bytesAt g 0 64) (grantSig g 0) || !countersigned s g then codeBadSignature
  else 0

/-- A write of `roles.maker_grant`: zeros end the grant. -/
def writeGrant (g : Bytes) (s : State) : Nat × State :=
  if allZero g then (0, endGrant s)
  else
    let code := grantRefusal g s
    if code ≠ 0 then (code, s) else (0, setRoles s fun r => { r with grant := g })

def execMakerGrantWrite (r : Role) (g : Bytes) (s : State) : Host.Outcome State Fault Refusal :=
  .next (roleRequest none r 0x1100 2 g (writeGrant g) s)

/-- A grant ends at its expiry. -/
def expireGrant (s : State) : State :=
  if s.sec.roles.grant ≠ [] && ofLe (bytesAt s.sec.roles.grant 48 8) ≤ s.rackNs.toNat then endGrant s else s

def execGrantExpiry (s : State) : Host.Outcome State Fault Refusal := .next (expireGrant s)

/-! ## Approved mode and zeroisation (R387, R395, R396) -/

/-- The configuration in force keeps R396. -/
def approvable (s : State) : Bool :=
  (partNumbers.all fun p => (getPart s p).active.floor == (getPart s p).active.ceiling)
    && (List.range (quadsOf s.fuses.variant)).all fun g => (getLace s g).state ≠ 2 || (getLace s g).signed

def changeApproved (v : Bool) (s : State) : State :=
  let s := rekeyAll (setCaerec s fun c => { c with approved := v })
  auditEvent 4 0 kindEvent 0x3100 2 0 [BitVec.ofNat 8 (b2n v)] s

/-- R387. The class 3 entries take their defaults in the next start, which finds no journal key. -/
def zeroise (s : State) : State :=
  let s := partNumbers.foldl (fun s p => updPart s p fun q =>
    { q with active := { q.active with key := [] }, staged := { q.staged with key := [] }, opNonce := 0 }) s
  let s := rekeyAll (setRoles s fun _ => {})
  let s := setCaerec s fun c => { c with sealKey := [], journalKey := [] }
  let s := { s with pack := { s.pack with start := { s.pack.start with journal := [], training := [] } } }
  nearFull (setAudit s fun _ => {})

def caerecCommand (v : Nat) (s : State) : Nat × State :=
  if v = 0 || 3 < v then (codeValueRange, s)
  else if !allUnloaded s then (codePartitionBusy, s)
  else match v with
  | 1 =>
    if !approvable s then (codeApproved, s)
    else storedEffect 0x3100 2 [BitVec.ofNat 8 (b2n s.sec.caerec.approved)] (fun s => (0, changeApproved true s)) s
  | 2 => storedEffect 0x3100 2 [BitVec.ofNat 8 (b2n s.sec.caerec.approved)] (fun s => (0, changeApproved false s)) s
  | _ => (0, zeroise s)

def execApprovedModeEnter (r : Role) (s : State) : Host.Outcome State Fault Refusal := commandBy r 0x3100 3 1 (caerecCommand 1) s
def execApprovedModeLeave (r : Role) (s : State) : Host.Outcome State Fault Refusal := commandBy r 0x3100 3 2 (caerecCommand 2) s
def execZeroise (r : Role) (s : State) : Host.Outcome State Fault Refusal := commandBy r 0x3100 3 3 (caerecCommand 3) s

/-! ## Module errors (R397) -/

/-- A partition halts: nothing of it executes any more. -/
def haltPartition (p : Nat) (s : State) : State :=
  updHold (onShuttles p haltThreads s) p fun h => { h with stepRuns := false, noMore := true, frozen := true }

def partsThatAre (s : State) : List Nat := partNumbers.filter fun p => (getPart s p).active.quads ≠ 0

/-- Known-answer and health tests fail in service. -/
def moduleFails (s : State) : State :=
  let s := setCaerec s fun c => { c with state := 2, failures := c.failures + 1 }
  let s := rekeyAll s
  let s := (partsThatAre s).foldl (fun s p => updStep (haltPartition p s) p fun q => { q with state := 6, phase := 0 }) s
  setPins (setCondition 0x305 true 2 s) fun q => { q with status := 14 }

/-- A failure in service; in the start the phase's outcome says it, and in reset the module does nothing. -/
def execModuleError (s : State) : Host.Outcome State Fault Refusal :=
  .next (if s.pack.pins.inReset || s.sec.caerec.state ≠ 0 then s else moduleFails s)

/-! ## Seals (R391 to R393) -/

/-- The 151 bytes that a seal signs, from the record's first 184 bytes. -/
def sealMessage (r : Bytes) : Bytes :=
  bytesAt r 32 48 ++ bytesAt r 80 48 ++ bytesAt r 128 48 ++ beBytes 6 (ofLe (bytesAt r 16 6)) ++ bytesAt r 6 1

/-- The oldest queued record of a partition is sealed. -/
def sealOne (p : Nat) (s : State) : State :=
  match (getPart s p).seals.queue with
  | [] => s
  | r :: rest =>
    let (sig, s) := moduleSign (sealMessage r) s
    let done := r ++ sig ++ List.replicate 8 0
    let s := updSeals s p fun e =>
      { queue := rest, sealed := (e.sealed ++ [done]).drop (e.sealed.length + 1 - 64), count := e.count + 1 }
    assertEvent (srcPart p 7) (n64 (ofLe (bytesAt r 16 8))) s

/-- The next slot of the frame: slots 0 to 15 serve the seals of a partition. -/
def serviceSlot (s : State) : State :=
  let i := s.sec.caerec.slot.val
  let s := setCaerec s fun c => { c with slot := c.slot + 1 }
  if moduleDown s || !s.pack.start.complete then s else if i < 16 then sealOne (i + 1) s else s

def execCaerecServiceSlot (s : State) : Host.Outcome State Fault Refusal := .next (serviceSlot s)

/-! ## Attestation (R394) -/

def writeNonce (n : Bytes) (s : State) : Nat × State := (0, setCaerec s fun c => { c with nonce := n })

def execAttestNonceWrite (r : Role) (n : Bytes) (s : State) : Host.Outcome State Fault Refusal :=
  .next (roleRequest none r 0x3110 1 n (writeNonce n) s)

/-- Bytes 144 to 311 of a partition report. -/
def partitionReport (p : Nat) (s : State) : Bytes :=
  let q := getPart s p
  leBytes 4 q.active.quads.toNat ++ [q.active.floor, q.active.ceiling, q.clock.beat, q.hold.hlat] ++ leBytes 2 q.active.ports.toNat
    ++ [0, 0] ++ leBytes 4 q.keyEpoch.toNat ++ fixedBytes 48 q.pattern.digest ++ leBytes 8 q.step.counter.toNat
    ++ fixedBytes 48 q.step.lineage ++ laceDigests s p

/-- Bytes 0 to 471 of a report (Table 14-10). -/
def reportBody (r : Role) (s : State) : Bytes :=
  let c := s.sec.caerec
  let fw := s.sec.fw
  let flags := b2n c.approved + 2 * b2n fw.exhausted + 4 * b2n (s.sec.roles.grant ≠ []) + 8 * b2n (c.state == 2)
  let own : Nat × Bytes := match r with
    | .operator p => (p.val, partitionReport p.val s)
    | _ => (0, List.replicate 168 0)
  leBytes 4 0x54535441 ++ leBytes 2 1 ++ leBytes 1 (if own.1 = 0 then 1 else 2) ++ leBytes 1 own.1 ++ leBytes 2 s.links.chip.toNat
    ++ List.replicate 6 0 ++ leBytes 8 s.fuses.serial.toNat ++ leBytes 4 s.pack.start.number.toNat ++ List.replicate 4 0
    ++ leBytes 8 s.rackNs.toNat ++ fixedBytes 48 c.nonce ++ fixedBytes 48 fw.activeDigest ++ [fw.activeSvn, fw.rollback]
    ++ leBytes 1 flags ++ List.replicate 5 0 ++ own.2 ++ fixedBytes 97 c.sealKey ++ List.replicate 7 0
    ++ leBytes 8 s.sec.audit.headNumber.toNat ++ fixedBytes 48 s.sec.audit.headChain

/-- The report with its signature by the identity key. -/
def report (r : Role) (s : State) : Bytes × State :=
  let body := reportBody r s
  let (sig, s) := moduleSign body s
  (body ++ sig, s)

def execAttestReportRead (r : Role) (s : State) : Host.Outcome State Fault Refusal := .next (roleRead none r 0x3110 2 (report r) s)

/-! ## Commands of the audit log (R389) -/

/-- What exported records leave is erased, under the lock of the package services. -/
def beginCompaction (s : State) : State :=
  if oldestExported s.sec.audit then takeActivity (servicesActivity .audit) s else s

def writeExported (n : W64) (s : State) : Nat × State :=
  if s.sec.audit.headNumber.toNat < n.toNat then (codeValueRange, s)
  else (0, beginCompaction (setAudit s fun a => { a with exportedTo := n }))

def execAuditExportedToWrite (r : Role) (n : W64) (s : State) : Host.Outcome State Fault Refusal :=
  .next (roleRequest none r 0x1200 4 (leBytes 8 n.toNat)
    (storedEffect 0x1200 4 (leBytes 8 s.sec.audit.exportedTo.toNat) (writeExported n)) s)

def requestAnchor (s : State) : Nat × State := (0, anchorAudit s)

def execAuditAnchorRequest (r : Role) (s : State) : Host.Outcome State Fault Refusal :=
  .next (roleRequest none r 0x1200 5 (List.replicate 152 0) requestAnchor s)

/-! ## Firmware (R399) -/

def setFw (s : State) (f : Firmware → Firmware) : State := setSec s fun c => { c with fw := f c.fw }

/-- Form and signatures of a bundle. -/
def bundleOk (s : State) (b : Bytes) : Bool :=
  let n := b.length
  let key := bytesAt b 16 97
  let body := b.take (n - 192)
  320 ≤ n && n ≤ 0x400000 && ofLe (bytesAt b 0 4) == 0x4D524946 && ofLe (bytesAt b 4 2) == 1 && ofLe (bytesAt b 8 8) == n
    && sha384 key == fixedBytes 48 s.fuses.releaseKey
    && sigOk key body (bytesAt b (n - 192) 96) && sigOk s.sec.roles.installerKey body (bytesAt b (n - 96) 96)

def bundleSvn (b : Bytes) : Byte := (bytesAt b 6 1).headD 0

/-- The inactive bank takes the staged bundle. -/
def writeBank (ok : Bool) (s : State) : State :=
  setFw s fun f =>
    if f.state ≠ 1 then f
    else if ok then { f with banks := sPut [] (1 - f.activeBank.toNat) f.stage f.banks, state := 2, marked := false, stagedSvn := bundleSvn f.stage }
    else { f with state := 0 }

def firmwareRuns (s : State) : Bool := (s.pack.maint.active ++ s.pack.maint.waiting).any fun r => r.activity == .firmware

/-- Command 1: the checks, then the write to the inactive bank as an activity of the services. -/
def verifyFirmware (s : State) : Nat × State :=
  let b := s.sec.fw.stage
  if !bundleOk s b then (codeFirmware, s)
  else if (bundleSvn b).toNat < s.sec.fw.rollback.toNat then (codeRollback, s)
  else
    let s := setFw s fun f => { f with state := 1 }
    (0, if firmwareRuns s then s else (startActivity (servicesActivity .firmware) s).2)

def firmwareCommand (v : Nat) (s : State) : Nat × State :=
  match v with
  | 1 => verifyFirmware s
  | 2 => if s.sec.fw.state = 2 || s.sec.fw.state = 3 then (0, setFw s fun f => { f with state := 3, marked := true }) else (codeFirmware, s)
  | 3 => (0, setFw s fun f => { f with state := 0, marked := false, stagedSvn := 0, stage := [] })
  | _ => (codeValueRange, s)

def execFirmwareVerify (r : Role) (s : State) : Host.Outcome State Fault Refusal := commandBy r 0x3300 2 1 (firmwareCommand 1) s
def execFirmwareMarkActive (r : Role) (s : State) : Host.Outcome State Fault Refusal := commandBy r 0x3300 2 2 (firmwareCommand 2) s
def execFirmwareCancel (r : Role) (s : State) : Host.Outcome State Fault Refusal := commandBy r 0x3300 2 3 (firmwareCommand 3) s

end Sys2Proof.Machine
end

