-- ==== Sys2Proof/Machine/Stored.lean ====
section
/-! DEFINITION. The stored entries (class 3) that roles write: their values as bytes, and their defaults (15 R406, 11 R289, R317,
14 R368, R381). -/

namespace Sys2Proof.Machine

def num (d : Bytes) (n : Nat) : BitVec n := BitVec.ofNat n (ofLe d)

def updIo (s : State) (f : Transports → Transports) : State := { s with pack := { s.pack with io := f s.pack.io } }
def updLinks (s : State) (f : Links → Links) : State := { s with links := f s.links }
def updStaged (s : State) (p : Nat) (f : PartCfg → PartCfg) : State := updPart s p fun q => { q with staged := f q.staged }

/-! ## The lane map (R289) -/

/-- The factory's port of a lane pair, as the state keeps it: port + 1. -/
def factoryLane (k : Nat) : Byte := BitVec.ofNat 8 (k / 4 + 1)

/-- A byte of a map as the entry shows it, and back. -/
def laneByte (b : Byte) : Byte := if b = 0 then 0xFF else b - 1
def laneKept (b : Byte) : Byte := if b = 0xFF then 0 else b + 1

def laneMapBytes (m : Sparse Byte) : Bytes := (List.range 48).map fun k => laneByte (sGet (factoryLane k) k m)

def putLaneMap (d : Bytes) : Sparse Byte :=
  (List.range 48).foldl (fun m k => sPut (factoryLane k) k (laneKept (d.getD k 0xFF)) m) []

/-- Pairs that a port holds by the map in force. -/
def pairsOf (s : State) (k : Nat) : Nat :=
  ((List.range 48).filter fun i => sGet (factoryLane i) i s.links.laneActive == BitVec.ofNat 8 (k + 1)).length

/-! ## Maps as bytes -/

/-- A map of U16 words as bytes, and back. -/
def wordsBytes (n : Nat) (m : Sparse W16) : Bytes := (List.range n).flatMap fun i => leBytes 2 (sGet 0 i m).toNat
def bytesWords (d : Bytes) : Sparse W16 :=
  (List.range (d.length / 2)).foldl (fun m i => sPut 0 i (BitVec.ofNat 16 (ofLe (bytesAt d (2 * i) 2))) m) []

/-- A map of bits as bytes, and back. -/
def bitsBytes (n : Nat) (m : Sparse Bool) : Bytes :=
  (List.range (n / 8)).map fun i => BitVec.ofNat 8 (((List.range 8).map fun j => b2n (sGet false (8 * i + j) m) * 2 ^ j).sum)
def bytesBits (d : Bytes) : Sparse Bool :=
  ((List.range d.length).zip d).foldl (fun m e =>
    if e.2 = 0 then m else (List.range 8).foldl (fun m j => sPut false (8 * e.1 + j) (bitAt j e.2.toNat) m) m) []

def laceKeyBytes (s : State) : Bytes := (List.range 8).flatMap fun i => fixedBytes 97 (sGet [] i s.sec.roles.laceKeys)
def putLaceKeys (d : Bytes) : Sparse Bytes :=
  (List.range 8).foldl (fun m i => let k := bytesAt d (97 * i) 97; sPut [] i (if allZero k then [] else k) m) []

/-! ## Values of stored entries -/

/-- A stored entry takes a value. -/
def putStored (base u sub : Nat) (d : Bytes) (s : State) : State :=
  match base, sub with
  | 0x1010, 2 => updIo s fun i => { i with ipv4 := num d 32 }
  | 0x1010, 3 => updIo s fun i => { i with ipv4Prefix := num d 8 }
  | 0x1010, 4 => updIo s fun i => { i with ipv4Gateway := num d 32 }
  | 0x1010, 5 => updIo s fun i => { i with ipv6 := if allZero d then [] else d }
  | 0x1010, 6 => updIo s fun i => { i with ipv6Prefix := num d 8 }
  | 0x1010, 7 => updIo s fun i => { i with ipv6Gateway := if allZero d then [] else d }
  | 0x1100, 1 => setRoles s fun r => { r with installerKey := if allZero d then [] else d }
  | 0x1100, 3 => setRoles s fun r => { r with laceKeys := putLaceKeys d }
  | 0x1200, 4 => setAudit s fun a => { a with exportedTo := num d 64 }
  | 0x2200, 1 => setPower s fun w => { w with limit := if ofLe d = envelopeW s.fuses.variant then none else some (num d 16) }
  | 0x2310, 9 => updClock s u fun c => { c with share := num d 16 }
  | 0x3010, 1 => updStaged s u fun c => { c with quads := num d 32 }
  | 0x3010, 2 => updStaged s u fun c => { c with floor := num d 8 }
  | 0x3010, 3 => updStaged s u fun c => { c with ceiling := num d 8 }
  | 0x3010, 4 => updStaged s u fun c => { c with ports := num d 16 }
  | 0x3010, 5 => updStaged s u fun c => { c with key := if allZero d then [] else d }
  | 0x3010, 6 => updStaged s u fun c => { c with vf := ofLe d ≠ 0 }
  | 0x3100, 2 => setCaerec s fun c => { c with approved := ofLe d ≠ 0 }
  | 0x5000, 1 => updLinks s fun l => { l with chipCfg := num d 16 }
  | 0x5000, 2 => updLinks s fun l => { l with laneMap := putLaneMap d }
  | 0x5000, 4 => updLinks s fun l => { l with role := num d 8 }
  | 0x5000, 5 => updLinks s fun l => { l with period := num d 32 }
  | 0x5000, 7 => updLinks s fun l => { l with syncPort := num d 8 }
  | 0x5010, 1 => updPort s u fun q => { q with modeCfg := num d 8 }
  | 0x5010, 16 => updPort s u fun q => { q with ipv6 := if allZero d then [] else d }
  | 0x5010, 17 => updPort s u fun q => { q with mac := num d 64 }
  | 0x5010, 18 => updPort s u fun q => { q with servers := if allZero d then [] else d }
  | 0x5010, 19 => updPort s u fun q => { q with vlan := num d 16 }
  | 0x5110, 1 => updRoute s u fun r => { r with table := bytesWords d }
  | 0x5110, 2 => updRoute s u fun r => { r with unreachNs := num d 32 }
  | 0x5110, 3 => updRoute s u fun r => { r with e2eNs := num d 32 }
  | 0x5110, 6 => updRoute s u fun r => { r with unreach := bytesBits d }
  | 0x7000, 2 => { s with events := { s.events with ibiMask := num d 16 } }
  | 0xA500, 4 => setMaint s fun m => { m with schedule := sPut [] u d m.schedule }
  | _, _ => s

/-- What the flash still holds where a copy was not written (R406). -/
def restoreStored (ix sub : Nat) (old : Bytes) (s : State) : State :=
  match indexOf ix with
  | some (base, u) => putStored base u sub old s
  | none => s

def restoreOp (op : FlashOp) (s : State) : State :=
  match op with
  | .settings ix sub old => restoreStored ix.toNat sub.toNat old s
  | _ => s

/-! ## Defaults -/

/-- R406: every stored entry takes its default. The records of the audit log and the counts that the package itself keeps stay in
their own areas. -/
def defaultStored (s : State) : State :=
  let s := { s with sec := { s.sec with
    roles := {}
    audit := { s.sec.audit with exportedTo := 0, overwritten := 0 }
    config := {}
    caerec := { s.sec.caerec with approved := false, sealKey := [] } } }
  let s := partNumbers.foldl (fun s p => updPart s p fun q =>
    { q with active := {}, staged := {}, opNonce := 0, clock := { q.clock with share := 0 } }) s
  let s := updIo s fun i => { i with ipv4 := 0, ipv4Prefix := 0, ipv4Gateway := 0, ipv6 := [], ipv6Prefix := 0, ipv6Gateway := [] }
  let s := updLinks s fun l => { l with chipCfg := 0, laneMap := [], role := 0, period := 1000000, syncPort := 15, ports := [] }
  let s := setMaint (setPower s fun w => { w with limit := none }) fun m => { m with schedule := [] }
  { s with routes := [], events := { s.events with ibiMask := 0x23 } }

end Sys2Proof.Machine
end

