-- ==== Sys2Proof/Machine/StartUp.lean ====
section
/-! DEFINITION. Reset and the start: what survives, the phases, the journal, and a stopped start (13 R358 to R366, 14 R384, R397, R399,
R400, 17 R459 to R463). -/

namespace Sys2Proof.Machine

def setStart (s : State) (f : Start → Start) : State := { s with pack := { s.pack with start := f s.pack.start } }

/-! ## Reset (R384, R406, R461) -/

/-- What a partition keeps: values of classes 2 and 3. -/
def coldPart (q : Part) : Part :=
  { active := q.active, staged := q.staged, opNonce := q.opNonce
    hold := { limit := q.hold.limit, hlat := q.hold.hlat }
    sync := { interval := q.sync.interval }
    pattern := { expected := q.pattern.expected, seed := q.pattern.seed }
    step := { retryLimit := q.step.retryLimit, interval := q.step.interval, timeoutNs := q.step.timeoutNs }
    clock := { share := q.clock.share, throttle := q.clock.throttle }
    debugging := { onHalt := q.debugging.onHalt, stopShuttles := q.debugging.stopShuttles, snapArea := q.debugging.snapArea, snapQuads := q.debugging.snapQuads }
    recd := { areaOffset := q.recd.areaOffset, areaBytes := q.recd.areaBytes } }

def coldPort (q : Port) : Port :=
  { modeCfg := q.modeCfg, ipv6 := q.ipv6, mac := q.mac, servers := q.servers, vlan := q.vlan }

def coldRoute (r : Route) : Route := { table := r.table, unreachNs := r.unreachNs, e2eNs := r.e2eNs, unreach := r.unreach }

def coldStart (t : Start) : Start :=
  { number := t.number, units := t.units, journal := t.journal, factory := t.factory, training := t.training, hung := t.hung }

def coldSec (c : Sec) : Sec :=
  { roles := c.roles, audit := c.audit
    config := { generation := c.config.generation }
    fw := { banks := c.fw.banks, activeBank := c.fw.activeBank, marked := c.fw.marked, stagedSvn := c.fw.stagedSvn
            activeDigest := c.fw.activeDigest, activeSvn := c.fw.activeSvn, rollback := c.fw.rollback, exhausted := c.fw.exhausted }
    caerec := { approved := c.caerec.approved, sealKey := c.caerec.sealKey, journalKey := c.caerec.journalKey } }

def coldIo (i : Transports) : Transports :=
  { ipv4 := i.ipv4, ipv4Prefix := i.ipv4Prefix, ipv4Gateway := i.ipv4Gateway, ipv6 := i.ipv6, ipv6Prefix := i.ipv6Prefix
    ipv6Gateway := i.ipv6Gateway }

def coldLinks (l : Links) : Links :=
  { chip := l.chip, chipCfg := l.chipCfg, laneMap := l.laneMap, laneActive := l.laneActive, role := l.role, period := l.period
    syncPort := l.syncPort, ports := sMap {} coldPort l.ports }

/-- What the key of a quadrant read through after a reset: nothing written before. -/
def coldHbm (v : Variant) (n : Nat) : Sparse HbmQuad := (List.range (quadsOf v)).map fun g => (g, { epoch := some (n + g) })

/-- The package in reset: stored values, fuses, the flash areas, the pins and the queue of commands stay. -/
def cold (s : State) : State :=
  { pending := s.pending, freeCount := s.freeCount + 32, nowNs := s.nowNs, fuses := s.fuses
    hbm := coldHbm s.fuses.variant s.freeCount
    parts := sMap {} coldPart s.parts
    events := { ibiMask := s.events.ibiMask }
    sec := coldSec s.sec
    links := coldLinks s.links
    routes := sMap {} coldRoute s.routes
    pack := { start := coldStart s.pack.start, power := { limit := s.pack.power.limit }, pins := s.pack.pins
              io := coldIo s.pack.io, maint := { schedule := s.pack.maint.schedule } } }

/-- The package enters reset for a cause (R463); copies of the settings that were not written are lost. -/
def enterReset (cause status : Nat) (s : State) : State :=
  let s := s.pack.pins.flash.reverse.foldl (fun s op => restoreOp op s) s
  setPins (cold s) fun q => { q with
    inReset := true, causeReg := BitVec.ofNat 8 cause, status := BitVec.ofNat 4 status, regulators := false, startDue := false
    spiReq := false, flash := [], perst := true }

/-! ## Journal records (Table 13-5) -/

structure JournalRec where
  phase   : Nat
  kind    : Nat
  unit    : Nat := 0
  result  : Nat := 0
  method  : Nat := 0
  reason  : Nat := 0
  elapsed : Nat := 0
  count   : Nat := 0
  detail  : Nat := 0
  deriving DecidableEq, Repr

def journalBody (number : Nat) (r : JournalRec) : Bytes :=
  leBytes 8 (number + r.phase * 2 ^ 32 + r.kind * 2 ^ 36 + r.unit * 2 ^ 40 + r.result * 2 ^ 48 + r.method * 2 ^ 52 + r.reason * 2 ^ 56)
    ++ leBytes 8 (r.elapsed + r.count * 2 ^ 32) ++ leBytes 8 r.detail ++ leBytes 8 0

def recordKind (b : Bytes) : Nat := bits 39 36 (ofLe (bytesAt b 0 8))
def recordStart (b : Bytes) : Nat := bits 31 0 (ofLe (bytesAt b 0 8))

def repairOf (b : Bytes) : Repair :=
  let d := ofLe (bytesAt b 16 8)
  { x := bits 9 0 d, y := bits 25 16 d }

def softRepairs (j : List Bytes) : List Repair := (j.filter fun b => recordKind b = 2).map repairOf

/-- A body is signed after the record before it and written at the head. -/
def signRecord (body : Bytes) (s : State) : State :=
  let prev := match s.pack.start.journal.getLast? with
    | some r => bytesAt r 32 96
    | none => List.replicate 96 0
  let (sig, s) := moduleSign (prev ++ body) s
  setStart s fun t => { t with journal := t.journal ++ [body ++ sig], journalState := 0 }

/-- A record is written; the oldest sector of a full ring goes first, but for its soft repairs (R365). -/
def journalRecord (r : JournalRec) (s : State) : State :=
  let t := s.pack.start
  let s := if t.journal.length < 2048 then s
    else
      let old := t.journal.take 32
      let s := setStart s fun t => { t with journal := t.journal.drop 32 }
      (old.filter fun b => recordKind b = 2).foldl (fun s b => signRecord (b.take 32) s) s
  signRecord (journalBody s.pack.start.number.toNat r) s

/-! ## Units (Table 13-4) -/

def unitKey (n u : Nat) : Nat := n * 256 + u
def getUnit (s : State) (n u : Nat) : StartUnit := sGet {} (unitKey n u) s.pack.start.units
def updUnit (n u : Nat) (f : StartUnit → StartUnit) (s : State) : State :=
  setStart s fun t => { t with units := sUpd {} (unitKey n u) f t.units }

def getDie (s : State) (d : Nat) : Die := sGet {} d s.pack.start.dies
def updDie (d : Nat) (f : Die → Die) (s : State) : State := setStart s fun t => { t with dies := sUpd {} d f t.dies }

def dieAwake (s : State) (d : Nat) : Bool := (getDie s d).state == 1
def awakeDies (s : State) : List Nat := (List.range (diesOf s.fuses.variant)).filter (dieAwake s)

/-- Dies of a seam unit. -/
def seamDies (u : Nat) : Nat × Nat := if u < 4 then (2 * u, 2 * u + 1) else (u - 4, u - 2)

def seamsFitted (v : Variant) : List Nat := (List.range 10).filter fun u => decide ((seamDies u).2 < diesOf v)

/-- Units of a phase, ascending. -/
def phaseUnits (s : State) (n : Nat) : List Nat :=
  match n with
  | 1 => [0, 1, 2, 3]
  | 4 => List.range (diesOf s.fuses.variant)
  | 5 => (awakeDies s).flatMap fun d => (List.range 32).map fun k => 32 * d + k
  | 6 => awakeDies s
  | 7 => (seamsFitted s.fuses.variant).filter fun u => dieAwake s (seamDies u).1 && dieAwake s (seamDies u).2
  | 8 => (List.range 12).filter fun k => portFitted s.fuses.variant k && decide (0 < pairsOf s k) && dieAwake s (k / 3)
  | 9 => if hasLacework s.fuses.variant then (awakeDies s).flatMap fun d => (List.range 4).map fun q => 4 * d + q else []
  | _ => [0]

/-- Phases and units whose failure stops the start, and which no command skips (R362, R363). -/
def neverSkipped (n u : Nat) : Bool := n == 1 || n == 2 || n == 3 || n == 11 || (n == 4 && u == 0)

/-! ## Work of a phase for a unit -/

def regionOfPos (x y : Nat) : Nat := (y / 256 * 2 + x / 512) * 32 + y % 256 / 64 * 8 + x % 512 / 64

/-- Two positions lie in one repair segment (R360). -/
def sameSegment (a b : Repair) : Bool := a.y == b.y && a.x / 64 == b.x / 64

/-- Repairs known to the package. -/
def repairs (s : State) : List Repair := s.pack.start.factory ++ softRepairs s.pack.start.journal

def applyRepair (a : Repair) (s : State) : State :=
  putTile s (tileKey a.x a.y) { getTile s (tileKey a.x a.y) with repaired := true }

/-- A soft repair is written, with the start it belongs to. -/
def softRepair (a : Repair) (s : State) : State :=
  journalRecord { phase := 5, kind := 2, unit := regionOfPos a.x a.y, detail := a.x + a.y * 2 ^ 16 } s

/-- R361 for the failing positions of a region: whether one finds no spare. -/
def repairAll : List TileAt → State → Bool × State
  | [], s => (false, s)
  | a :: r, s =>
    let q : Repair := ⟨a.x.toNat, a.y.toNat⟩
    if (repairs s).any (sameSegment q) then
      let (_, s) := repairAll r s
      (true, s)
    else repairAll r (applyRepair q (softRepair q s))

/-- `quadrants_unavailable` of a die as its regions give it. -/
def regionsUnavailable (s : State) (d : Nat) : Byte :=
  BitVec.ofNat 8 (((List.range 4).map fun q =>
    b2n ((List.range 32).any fun k => quadOfRegion (32 * d + k) % 4 == q && (getRegion s (32 * d + k)).state == 2) * 2 ^ q).sum)

def setUnavailable (d : Nat) (v : Byte) (s : State) : State := updDie d (fun e => { e with unavailable := v }) s

/-- A failed unit's state: what the "On failure" column leaves. -/
def failUnit (n u : Nat) (s : State) : State :=
  match n with
  | 4 =>
    let s := updDie u (fun e => { e with state := 2, unavailable := 0x0F }) s
    (List.range 32).foldl (fun s k => updRegion (32 * u + k) (fun r => { r with state := 2 }) s) s
  | 5 =>
    let s := updRegion u (fun r => { r with state := 2 }) s
    setUnavailable (u / 32) (regionsUnavailable s (u / 32)) s
  | 6 => setUnavailable u 0x0F s
  | 7 => setStart s fun t => { t with seamsCut := t.seamsCut ||| BitVec.ofNat 16 (2 ^ u) }
  | 8 => updPort s u fun q => { q with state := 3, downReason := 2 }
  | 9 => updLace s u fun g => { emptySegment g with bypassOnly := true }
  | 10 => updIo s fun i => { i with pcieLink := 0 }
  | _ => s

/-- What a unit's values in the training area become with a full training. -/
def trainedValue (o : Option PhaseOutcome) (u : Nat) (s : State) : W64 × State :=
  match o with
  | some e => (e.training, s)
  | none =>
    let (n, s) := takeFree s
    (n64 (Config.training n u), s)

/-- A measured round trip in ns, rounded up to a multiple of 50 ns as `port.rtt_ns` shows it (R306); the greatest such value of 16
bits stands for a longer one. -/
def roundTrip (ns : Nat) : W16 := BitVec.ofNat 16 (min 65500 ((ns + 49) / 50 * 50))

/-- A port that has trained (P8): bits of the outcome's value give its peer's chip [15:0] and port [19:16] and the round trip
it measured [35:20]. -/
def trainPort (k : Nat) (o : Option PhaseOutcome) (s : State) : State :=
  let v := (o.map (·.training.toNat)).getD 0
  let s := updPort s k fun q => { q with peerChip := BitVec.ofNat 16 v, peerPort := BitVec.ofNat 8 (bits 19 16 v), rtt := roundTrip (bits 35 20 v) }
  if (getPort s k).mode = 1 then
    assertEvent (srcPort k 1) (n64 (getPort s k).lanes) (updPort s k fun q => { q with state := 5, downReason := 0 })
  else portUp k s

/-- Firmware of the active bank, as P2 verifies it (R399). -/
def runFirmware (flip fallback : Bool) (s : State) : State :=
  let s := setFw s fun f =>
    let bank := if flip then 1 - f.activeBank else f.activeBank
    let b := sGet [] bank.toNat f.banks
    { f with activeBank := bank, marked := false, state := if fallback then 4 else 0
             activeDigest := if flip then sha384 b else f.activeDigest, activeSvn := if flip then bundleSvn b else f.activeSvn }
  let s := if flip then auditEvent 4 0 kindEvent 0x3300 4 0 s.sec.fw.activeDigest s else s
  if fallback then assertEvent 0x309 4 s else s

/-- Records of this start are signed anew behind the trusted ones. -/
def trustJournal (keep : Nat) (state : Byte) (s : State) : State :=
  let t := s.pack.start
  let mine := (t.journal.filter fun b => recordStart b = t.number.toNat).map (List.take 32)
  let s := setStart s fun t => { t with journal := t.journal.take (min keep (t.journal.length - mine.length)), journalState := state
                                        untrusted := true, units := [] }
  let s := if state = 2 then assertEvent 0x303 2 s else s
  mine.foldl (fun s b => signRecord b s) s

/-- P2: self-tests, the journal's key and verification, and the firmware. The outcome's value is 0, or one more than the index of the
first record that does not verify. -/
def bootModule (o : Option PhaseOutcome) (fallback : Bool) (s : State) : State :=
  let bad := (o.map (·.training.toNat)).getD 0
  let s := setCaerec s fun c => { c with state := 0 }
  let s := if s.sec.caerec.journalKey = [] then
      let (k, s) := moduleKey s
      trustJournal 0 1 (setStart (setCaerec s fun c => { c with journalKey := k }) fun t => { t with firstKey := true })
    else if bad ≠ 0 && bad ≤ s.pack.start.journal.length then trustJournal (bad - 1) 2 s
    else s
  runFirmware ((s.sec.fw.marked && s.sec.fw.banks ≠ []) != fallback) fallback s

/-- P3: stored values, or their defaults where no copy verifies (the outcome's value is then not 0); what takes effect at a start. -/
def loadFuses (o : Option PhaseOutcome) (s : State) : State :=
  let bad := (o.map (·.training.toNat)).getD 0
  let s := if s.pack.start.firstKey || bad ≠ 0 then defaultStored s else s
  let s := if s.pack.start.firstKey then queueFlash .keyStore s else s
  let s := updLinks s fun l => { l with chip := l.chipCfg, laneActive := l.laneMap }
  let s := (List.range 12).foldl (fun s k => if portFitted s.fuses.variant k then
      updPort s k fun q => { q with mode := q.modeCfg, lanes := 2 * pairsOf s k, state := if pairsOf s k = 0 then 0 else 1 }
    else s) s
  setPins s fun q => { q with lastCause := q.causeReg }

/-- What a unit's success leaves. -/
def passUnit (n u : Nat) (o : Option PhaseOutcome) (fallback : Bool) (s : State) : State :=
  match n with
  | 1 => setPins s fun q => { q with regulators := true }
  | 2 => bootModule o fallback s
  | 3 => loadFuses o s
  | 4 =>
    let s := updDie u (fun e => { e with state := 1 }) s
    (List.range 32).foldl (fun s k => updRegion (32 * u + k) (fun r => { r with state := 1 }) s) s
  | 5 =>
    let s := updRegion u (fun r => { r with state := 1 }) s
    setUnavailable (u / 32) (regionsUnavailable s (u / 32)) s
  | 6 => setUnavailable u (regionsUnavailable s u) s
  | 7 => setStart s fun t => { t with seamsCut := t.seamsCut &&& ~~~BitVec.ofNat 16 (2 ^ u) }
  | 8 => trainPort u o s
  | 9 => updLace s u fun g => { emptySegment g with bypassOnly := false }
  | 10 => setPins (updIo s fun i => { i with pcieLink := BitVec.ofNat 16 ((o.map (·.training.toNat)).getD 0) }) fun q => { q with perst := false }
  | _ => s

/-! ## Results and counts (R363) -/

def elapsedOf (o : Option PhaseOutcome) (s : State) : Nat :=
  match o with
  | some e => e.elapsedUs.toNat
  | none => (s.nowNs - s.pack.start.began) / 1000

/-- The count of a unit after a result: 0 ok, 1 failed, 2 skipped, 3 ok by alternative. -/
def countAfter (result count : Nat) : Nat :=
  match result with
  | 1 => count + 1
  | 2 => count
  | _ => 0

/-- The unit's count and its method in the next start. -/
def noteResult (n u result : Nat) (s : State) : State :=
  updUnit n u (fun e => { count := countAfter result e.count
                          alternative := (n == 6 || n == 7) && (result == 1 || result == 3)
                          skip := n == 8 && result == 1 }) s

def stopStart (n u : Nat) (s : State) : State :=
  let s := setStart s fun t => { t with state := 2, phase := BitVec.ofNat 8 n, stoppedUnit := BitVec.ofNat 8 u }
  let s := setPins s fun q => { q with status := 13 }
  assertEvent 0x301 (n64 (n + u * 2 ^ 8)) s

/-- The result of a unit is recorded; whether the start goes on. -/
def closeUnit (n u result method reason detail : Nat) (o : Option PhaseOutcome) (s : State) : Bool × State :=
  let s := noteResult n u result s
  let count := (getUnit s n u).count
  let s := journalRecord { phase := n, kind := 1, unit := u, result := result, method := method, reason := reason
                           elapsed := elapsedOf o s, count := count, detail := detail } s
  if result = 1 && (neverSkipped n u || count = 3) then (false, stopStart n u s) else (true, s)

def storedTraining (s : State) (n u : Nat) : W64 := sGet 0 (unitKey n u) s.pack.start.training

/-- Full training of a stack or seam. -/
def fullTraining (n u : Nat) (ok : Bool) (result reason : Nat) (o : Option PhaseOutcome) (s : State) : Bool × State :=
  if ok then
    let (v, s) := trainedValue o u s
    let s := setStart s fun t => { t with training := sPut 0 (unitKey n u) v t.training }
    closeUnit n u result 1 0 v.toNat o (passUnit n u o false s)
  else closeUnit n u 1 1 reason (storedTraining s n u).toNat o (failUnit n u s)

/-- P6 and P7: the fast method, then the full one; or the full one first (R362). Fast training uses the stored values only when they
are those of the record. -/
def train (n u : Nat) (o : Option PhaseOutcome) (late : Bool) (s : State) : Bool × State :=
  let reason := if late then 1 else (o.map (·.reason.toNat)).getD 0
  let ok := !late && ((o.map (·.ok)).getD true)
  let fallback := (o.map (·.fallback)).getD (!late)
  let stored := storedTraining s n u
  if (getUnit s n u).alternative || s.pack.start.untrusted || stored = 0 then fullTraining n u ok 0 reason o s
  else if ok && ((o.map (·.training)).getD stored) = stored then closeUnit n u 0 0 0 stored.toNat o (passUnit n u o false s)
  else fullTraining n u fallback 3 reason o s

/-- The phase's work for a unit; `late`: it has exceeded its bound. -/
def runUnit (n u : Nat) (o : Option PhaseOutcome) (late : Bool) (s : State) : Bool × State :=
  let ok := !late && ((o.map (·.ok)).getD true)
  let reason := if late then 1 else (o.map (·.reason.toNat)).getD 0
  let fallback := (o.map (·.fallback)).getD false
  let pass (result method : Nat) (s : State) : Bool × State := closeUnit n u result method 0 0 o (passUnit n u o (result == 3) s)
  let fail (reason : Nat) (s : State) : Bool × State := closeUnit n u 1 0 reason 0 o (failUnit n u s)
  match n with
  | 2 =>
    if ok then pass 0 0 s
    else if fallback && !late then pass 3 1 s
    else fail reason (setCaerec s fun c => { c with failures := c.failures + 1 })
  | 5 =>
    let s := ((repairs s).filter fun a => regionOfPos a.x a.y = u).foldl (fun s a => applyRepair a s) s
    let here := ((o.map (·.positions)).getD []).filter fun a => regionOfPos a.x.toNat a.y.toNat = u
    let (lost, s) := repairAll here s
    if lost then fail 6 s else if ok then pass 0 0 s else fail reason s
  | 6 => train 6 u o late s
  | 7 => train 7 u o late s
  | 8 =>
    if (getPort s u).mode = 1 && pairsOf s u ≠ 4 then (true, updPort s u fun q => { q with state := 3, downReason := 6 })
    else if (getUnit s 8 u).skip then
      closeUnit 8 u 2 0 7 0 o (updPort s u fun q => { q with state := 3, downReason := 3 })
    else if ok then pass 0 0 s else fail reason s
  | 9 => if ok || fallback then pass 0 0 s else fail reason s
  | _ => if ok then pass 0 0 s else fail reason s

/-! ## The phases in order -/

def outcomeOf (outs : List PhaseOutcome) (n u : Nat) : Option PhaseOutcome :=
  outs.find? fun o => o.phase.val == n && o.unit.val == u

def enterPhase (n : Nat) (s : State) : State :=
  let s := setStart s fun t => { t with phase := BitVec.ofNat 8 n }
  let s := setPins s fun q => { q with status := BitVec.ofNat 4 n }
  if n = 2 then setCaerec s fun c => { c with state := 1 } else s

/-- At the end of P5 each die gates its regions again (R358). -/
def leavePhase (n : Nat) (s : State) : State :=
  if n = 5 then (List.range 256).foldl (fun s r => if (getRegion s r).state = 1 then updRegion r (fun q => { q with state := 0 }) s else s) s
  else s

/-- Units of a phase one after the other, until one hangs or stops the start. -/
def runUnits (outs : List PhaseOutcome) (n : Nat) : List Nat → State → Bool × State
  | [], s => (true, s)
  | u :: r, s =>
    let o := outcomeOf outs n u
    if (o.map (·.hang)).getD false then (false, setStart s fun t => { t with hung := some (n, u) })
    else
      let (go, s) := runUnit n u o false s
      if go then runUnits outs n r s else (false, s)

/-- R400: the rollback counter follows the firmware that runs. -/
def burnFuses (s : State) : State :=
  let fw := s.sec.fw
  if fw.activeSvn.toNat ≤ fw.rollback.toNat then s
  else
    let s := setFw s fun f => { f with rollback := f.activeSvn }
    let s := auditEvent 4 0 kindEvent 0x3300 7 0 [fw.activeSvn] s
    if fw.activeSvn = 255 && !fw.exhausted then assertEvent 0x306 255 (setFw s fun f => { f with exhausted := true }) else s

/-- The end of P11. -/
def completeStart (s : State) : State :=
  let us := (s.nowNs - s.pack.start.began) / 1000
  let s := setStart s fun t => { t with state := 1, complete := true, elapsed := BitVec.ofNat 32 us }
  let s := journalRecord { phase := 0, kind := 4, elapsed := us } s
  let s := setPins s fun q => { q with status := 12 }
  burnFuses (assertEvent 0x302 (n64 us) s)

def runPhases (outs : List PhaseOutcome) : List Nat → State → State
  | [], s => completeStart s
  | n :: r, s =>
    let s := enterPhase n s
    let (go, s) := runUnits outs n (phaseUnits s n) s
    if go then runPhases outs r (leavePhase n s) else s

/-- The start goes on after a unit. -/
def runAfter (outs : List PhaseOutcome) (n u : Nat) (s : State) : State :=
  let (go, s) := runUnits outs n ((phaseUnits s n).filter fun v => u < v) s
  if go then runPhases outs ((List.range 12).drop (n + 1)) (leavePhase n s) else s

/-- A phase that was under way when the last start ended counts as failed, with reason 5 and no record (R366, R469). -/
def countUnfinished (s : State) : State :=
  match s.pack.start.hung with
  | none => s
  | some (n, u) => setStart (noteResult n u 1 s) fun t => { t with hung := none }

/-- P1 begins. -/
def beginStart (outs : List PhaseOutcome) (s : State) : State :=
  let s := setPins (countUnfinished s) fun q => { q with inReset := false, startDue := false }
  let s := setStart s fun t => { t with number := t.number + 1, state := 0, complete := false, began := s.nowNs, firstKey := false
                                        untrusted := false, seamsCut := 0, dies := [] }
  runPhases outs [1, 2, 3, 4, 5, 6, 7, 8, 9, 10, 11] (endGrant s)

/-- A start may begin (R461, R463, R474). -/
def mayStart (s : State) : Bool :=
  let q := s.pack.pins
  q.inReset && q.startDue && q.vaux && !q.resetPin && !q.thermtrip && bitAt 0 q.refclks.toNat && bitAt 1 q.refclks.toNat

def execStart (outs : List PhaseOutcome) (s : State) : Host.Outcome State Fault Refusal :=
  .next (if mayStart s then beginStart outs s else s)

/-- The unit under way fails, with reason 1, and the start goes on. -/
def boundExceeded (outs : List PhaseOutcome) (s : State) : State :=
  match s.pack.start.hung with
  | none => s
  | some (n, u) =>
    if s.pack.pins.inReset then s
    else
      let s := setStart s fun t => { t with hung := none }
      let (go, s) := runUnit n u (outcomeOf outs n u) true s
      if go then runAfter outs n u s else s

def execPhaseBoundExpiry (outs : List PhaseOutcome) (s : State) : Host.Outcome State Fault Refusal := .next (boundExceeded outs s)

/-! ## A stopped start (R363) -/

def startCommandRecord (v : Nat) (s : State) : State := journalRecord { phase := 0, kind := 3, detail := v } s

def startControl (v : Nat) (outs : List PhaseOutcome) (s : State) : Nat × State :=
  let t := s.pack.start
  let n := t.phase.toNat
  let u := t.stoppedUnit.toNat
  if v = 0 || 3 < v || t.state ≠ 2 then (codeValueRange, s)
  else if v = 2 && neverSkipped n u then (codeNotSkippable, s)
  else
    let s := startCommandRecord v (setStart s fun t => { t with command := BitVec.ofNat 8 v })
    if v = 3 then (0, beginStart outs s)
    else
      let s := setStart (enterPhase n s) fun t => { t with state := 0 }
      if v = 2 then
        let (_, s) := closeUnit n u 2 0 8 0 none s
        (0, runAfter outs n u s)
      else
        let o := outcomeOf outs n u
        let s := updUnit n u (fun e => { e with count := 0, skip := false }) s
        if (o.map (·.hang)).getD false then (0, setStart s fun t => { t with hung := some (n, u) })
        else
          let (go, s) := runUnit n u o false s
          (0, if go then runAfter outs n u s else s)

def execStartCommandRetry (r : Role) (outs : List PhaseOutcome) (s : State) : Host.Outcome State Fault Refusal :=
  commandBy r 0x2000 4 1 (startControl 1 outs) s
def execStartCommandSkip (r : Role) (outs : List PhaseOutcome) (s : State) : Host.Outcome State Fault Refusal :=
  commandBy r 0x2000 4 2 (startControl 2 outs) s
def execStartCommandRestart (r : Role) (outs : List PhaseOutcome) (s : State) : Host.Outcome State Fault Refusal :=
  commandBy r 0x2000 4 3 (startControl 3 outs) s

end Sys2Proof.Machine
end

