-- ==== Sys2Proof/Machine/PinEvents.lean ====
section
/-! DEFINITION. What happens on the pins, rails and clocks (11 R310, 17 R459 to R469, R474, R476), and the grants of the flash bus. -/

namespace Sys2Proof.Machine

/-! ## Straps and reset -/

/-- The straps as `pins.straps` shows them (R459). -/
def strapByte (v : Straps) : Byte := BitVec.ofNat 8 (v.traySlot.toNat + v.i3cAddr.toNat * 4)

def sampleStraps (v : Straps) (s : State) : State := setPins s fun q => { q with straps := strapByte v }

/-- VAUX comes into range: cause 1, the straps, and a start unless RESET# is low. -/
def vauxArrives (v : Straps) (s : State) : State :=
  if s.pack.pins.vaux then s
  else setPins (sampleStraps v s) fun q => { q with vaux := true, causeReg := 1, startDue := !q.resetPin }

def execVauxInRange (v : Straps) (s : State) : Host.Outcome State Fault Refusal := .next (vauxArrives v s)

/-- VAUX is lost: its register forgets the cause, and THERMTRIP# is released. -/
def vauxLeaves (s : State) : State :=
  if !s.pack.pins.vaux then s
  else setPins (if s.pack.pins.inReset then s else enterReset 1 0 s) fun q => { q with
    vaux := false, causeReg := 1, thermtrip := false, startDue := false, status := 0, jtag := .bypass }

def execVauxLost (s : State) : Host.Outcome State Fault Refusal := .next (vauxLeaves s)

/-- RESET# has been low long enough to act (R461). -/
def resetActs (lowUs : Nat) (s : State) : Bool × State :=
  if lowUs < 100 then (false, s)
  else if 1000 ≤ lowUs then (true, s)
  else
    let (n, s) := takeFree s
    (Config.shortResetResets n, s)

def resetAsserted (lowUs : Nat) (s : State) : State :=
  let (acts, s) := resetActs lowUs s
  let s := setPins s fun q => { q with resetPin := true, startDue := false }
  if !acts then s
  else setPins (if s.pack.pins.inReset then s else enterReset 2 0 s) fun q => { q with thermtrip := false, status := 0 }

def execResetAssert (lowUs : Nat) (s : State) : Host.Outcome State Fault Refusal := .next (resetAsserted lowUs s)

/-- RESET# goes high: the straps are sampled, and in reset a start is due 1 ms later. -/
def resetReleased (v : Straps) (s : State) : State :=
  if !s.pack.pins.resetPin then s
  else setPins (sampleStraps v s) fun q => { q with resetPin := false, startDue := q.inReset && q.vaux && !q.thermtrip }

def execResetDeassert (v : Straps) (s : State) : Host.Outcome State Fault Refusal := .next (resetReleased v s)

/-! ## Rails, temperature and reference clocks -/

/-- R469: which of the rails fell does not matter. -/
def brownOut (_rail : Rail) (s : State) : State := if s.pack.pins.inReset then s else enterReset 3 0 s

def execRailBrownOut (rail : Rail) (s : State) : Host.Outcome State Fault Refusal := .next (brownOut rail s)

/-- R474. -/
def tripped (s : State) : State :=
  if s.pack.pins.inReset then s
  else setPins (enterReset 4 15 s) fun q => { q with thermtrip := true, trips := q.trips + 1 }

def execThermalTrip (s : State) : Host.Outcome State Fault Refusal := .next (tripped s)

def clockBit : RefClk → BitVec 4
  | .pkg => 1
  | .mgmt => 2

/-- R466: the package cannot run without the clock. -/
def clockLost (c : RefClk) (s : State) : State :=
  let s := setPins s fun q => { q with refclks := q.refclks &&& ~~~clockBit c }
  if s.pack.pins.inReset then setPins s fun q => { q with startDue := false } else enterReset 5 0 s

def execRefclkLost (c : RefClk) (s : State) : Host.Outcome State Fault Refusal := .next (clockLost c s)

/-- VAUX and both clocks have been in range for 1 ms (R463): a reset whose cause is not 2 ends by itself. -/
def restarts (s : State) : State :=
  let q := s.pack.pins
  if q.inReset && q.vaux && !q.resetPin && !q.thermtrip && q.causeReg ≠ 0 && q.causeReg ≠ 2 then
    setPins s fun q => { q with startDue := true, refclks := q.refclks ||| 3 }
  else s

def execAutoRestart (s : State) : Host.Outcome State Fault Refusal := .next (restarts s)

/-! ## Rack time and the step pulse (R310, R311, R466, R467) -/

/-- Rack time runs free: `sync_state` 2 and `pulse_lost`. -/
def runsFree (s : State) : State := assertEvent 0x307 2 (updLinks s fun l => { l with syncState := 2, pulsed := true })

def rackClockLost (s : State) : State :=
  let s := setPins s fun q => { q with refclks := q.refclks &&& 0xB }
  if s.pack.pins.inReset then s else runsFree s

def execRackRefclkLost (s : State) : Host.Outcome State Fault Refusal := .next (rackClockLost s)

/-- Rack time locks again: a pulse master that is the root at once, every other package with its next correction. -/
def rackClockBack (s : State) : State :=
  let s := setPins s fun q => { q with refclks := q.refclks ||| 4 }
  if s.pack.pins.inReset then s
  else updLinks s fun l => { l with syncState := if l.role = 1 && l.syncPort = 15 then 0 else 1, lastEdge := s.nowNs, pulsed := false }

def execRackRefclkReturn (s : State) : Host.Outcome State Fault Refusal := .next (rackClockBack s)

/-- The nearest multiple of a period. -/
def nearest (period t : Nat) : Nat := if period = 0 then t else (t + period / 2) / period * period

def distance (a b : Nat) : Nat := (a - b) + (b - a)

/-- A rising edge of STEP_IN at a package of role 0. -/
def stepEdge (s : State) : State :=
  if s.pack.pins.inReset || s.links.role ≠ 0 then s
  else
    let t := s.rackNs.toNat
    let v := nearest s.links.period.toNat t
    let s := updLinks s fun l => { l with
      lastEdge := s.nowNs, pulsed := false, syncState := 0, syncJumps := if 64 < distance t v then l.syncJumps + 1 else l.syncJumps }
    { s with rackNs := n64 v }

def execStepInEdge (s : State) : Host.Outcome State Fault Refusal := .next (stepEdge s)

/-- STEP_OUT of a pulse master: high for 100 ns from each multiple of the period. -/
def drivePulse (s : State) : State :=
  let l := s.links
  let high := l.role = 1 && !s.pack.pins.inReset && l.period ≠ 0 && s.rackNs.toNat % l.period.toNat < 100
  updLinks s fun l => { l with stepOut := high }

def execStepPulse (s : State) : Host.Outcome State Fault Refusal := .next (drivePulse s)

/-- A master's sync port does not carry its time. -/
def syncPortAway (s : State) : Bool :=
  let l := s.links
  l.role == 1 && decide (l.syncPort.toNat < 12) && (getPort s l.syncPort.toNat).state ≠ 2

/-- No edge for two periods, or a master whose sync port is not up: once each time. -/
def pulseMissing (s : State) : State :=
  let l := s.links
  let late := l.role = 0 && decide (l.lastEdge + 2 * l.period.toNat ≤ s.nowNs)
  if s.pack.pins.inReset || l.pulsed then s else if late || syncPortAway s then runsFree s else s

def execPulseLost (s : State) : Host.Outcome State Fault Refusal := .next (pulseMissing s)

/-! ## PERST# (R460, R462) -/

def isPcie : Transport → Bool
  | .pcie _ => true
  | _ => false

/-- The endpoint's registers after its reset: the request and response buffers stay. -/
def resetMailbox (m : Mailbox) : Mailbox := { request := m.request, response := m.response }

/-- The endpoint alone resets. -/
def perstAsserted (s : State) : State :=
  if s.pack.pins.inReset || s.pack.pins.perst then setPins s fun q => { q with perst := true }
  else
    let s := setPins s fun q => { q with perst := true }
    let s := (List.range 17).foldl (fun s r => if ringKind (getRing s r) = 1 then
        updRing r (fun g => { g with cfg := n64 (g.cfg.toNat / 4 * 4), head := 0, tail := 0, store := [] }) s else s) s
    updIo s fun i => { i with pcieLink := 0, mailboxes := sMap {} resetMailbox i.mailboxes
                              sessions := i.sessions.filter fun e => !isPcie e.1 }

def execPerstAssert (s : State) : Host.Outcome State Fault Refusal := .next (perstAsserted s)

/-- The endpoint trains once P10 of the start has passed; a deassertion before it is ignored. -/
def perstReleased (rate width : Byte) (s : State) : State :=
  if s.pack.pins.inReset || !s.pack.pins.perst || s.pack.start.phase.toNat < 10 then s
  else updIo (setPins s fun q => { q with perst := false }) fun i => { i with pcieLink := width ++ rate }

def execPerstDeassert (rate width : Byte) (s : State) : Host.Outcome State Fault Refusal := .next (perstReleased rate width s)

/-! ## The flash bus (R406, R464) -/

/-- A grant: one flash command completes. -/
def flashGranted (s : State) : State :=
  setPins s fun q => { q with flash := q.flash.drop 1, spiReq := !(q.flash.drop 1).isEmpty }

/-- No grant within 1 ms: the stored value stays as it was, and its write is refused; in a start the phase under way fails. -/
def flashFailed (s : State) : State :=
  match s.pack.pins.flash with
  | [] => boundExceeded [] s
  | op :: rest =>
    let s := setPins (restoreOp op s) fun q => { q with flash := rest, spiReq := !rest.isEmpty }
    match op with
    | .settings .. => answer codeFlashFailed [] s
    | _ => s

/-! ## JTAG (R396, R476) -/

/-- A partition keeps boundary scan away. -/
def scanBlocked (s : State) : Bool := partNumbers.any fun p => stepState s p == 2 || stepState s p == 3 || stepState s p == 5

def is1149_6 : JtagInstr → Bool
  | .extestPulse => true
  | .extestTrain => true
  | _ => false

/-- The instruction that takes effect. -/
def jtagEffect (s : State) (i : JtagInstr) : JtagInstr :=
  match i with
  | .vendorPrivate c => if s.sec.caerec.approved || s.sec.roles.grant = [] then .bypass else .vendorPrivate c
  | .extest => if scanBlocked s then .bypass else .extest
  | j => if is1149_6 j && (s.sec.caerec.approved || scanBlocked s) then .bypass else j

def execJtagInstruction (i : JtagInstr) (s : State) : Host.Outcome State Fault Refusal :=
  .next (setPins s fun q => { q with jtag := jtagEffect s i })

end Sys2Proof.Machine
end

