-- ==== Sys2Proof/Machine/Maintenance.lean ====
section
/-! DEFINITION. Maintenance: scrub, retraining, self-tests, schedules, lacework readback, and the end of an activity (12 R341, 14 R377,
16 R452 to R454). -/

namespace Sys2Proof.Machine

/-! ## What an activity leaves at its end -/

/-- What a scrub does with a sector whose errors the code corrects, finds uncorrectable, or misses. -/
def scrubFate : SectorOutcome → Nat
  | .corrected => 1
  | .beyondMiscorrected _ => 1
  | .uncorrectable => 2
  | .beyondDetected => 2
  | _ => 0

/-- A scrub of a channel reads its sectors: what the code corrects is counted and rewritten as corrected, what it finds uncorrectable
becomes poisoned (R33, R188). -/
def scrubbed (die ch : Nat) (s : State) : State :=
  let g := die * 4 + ch / 8
  let q := getHbm s g
  let mine := q.errors.filter fun e => e.1 / 8 % 8 == ch % 8
  let fixed := mine.filter fun e => scrubFate e.2 = 1
  let lost := mine.filter fun e => scrubFate e.2 = 2
  let q := fixed.foldl (fun q e => match e.2 with
    | .beyondMiscorrected d => hbmPutBytes (e.1 * 32) (bytesAt d 0 32) q
    | _ => q) q
  let s := putHbm s g { q with
    errors := q.errors.filter fun e => !(e.1 / 8 % 8 == ch % 8 && scrubFate e.2 != 0)
    poison := lost.foldl (fun m e => sPut false e.1 true m) q.poison }
  let s := updHbmDie s die fun d => { d with
    corrected := d.corrected + BitVec.ofNat 64 fixed.length, uncorrected := d.uncorrected + BitVec.ofNat 64 lost.length }
  lost.foldl (fun s e => assertEvent (srcQuad g 4) (n64 (hbmOffset s.fuses.variant g (e.1 * 32))) s) s

/-- A retrained port goes up, or down. -/
def portRetrained (k : Nat) (ok : Bool) (s : State) : State :=
  if (getPort s k).state ≠ 4 then s
  else if !ok then portDown k 2 s
  else if (getPort s k).mode = 1 then
    assertEvent (srcPort k 1) (n64 (getPort s k).lanes) (updPort s k fun q => { q with state := 5, downReason := 0 })
  else portUp k s

/-- Positions that fail the self-test are repaired by the next start. -/
def selfTested (g : Nat) (positions : List TileAt) (s : State) : State :=
  (positions.filter fun a => quadOfAt a = g).foldl (fun s a =>
    journalRecord { phase := 5, kind := 2, unit := regionOfPos a.x.toNat a.y.toNat, detail := a.x.toNat + a.y.toNat * 2 ^ 16 } s) s

/-- The bytes of `lace.config` or of the capture that a readback of `lace.ff_state` has asked for. -/
def laceRead (s : State) (target : Nat) : Bytes :=
  let g := target % 256
  if target < 256 then windowBytes s (.lace g 0) 0x200000 else windowBytes s (.lace g 0x200000) 0x4000

def endEffect (die : Nat) (ok : Bool) (positions : List TileAt) (r : Running) (s : State) : State :=
  match r.activity with
  | .scrub => scrubbed die r.target s
  | .port => portRetrained r.target ok s
  | .selfTest => selfTested r.target positions s
  | .lace => answer 0 (laceRead s r.target) s
  | .firmware => writeBank ok s
  | _ => s

/-- MAINT_ACTIVITY_END; a frequency change and a save end with their own commands. -/
def activityEnds (die : Nat) (a : Activity) (ok : Bool) (positions : List TileAt) (s : State) : State :=
  if a = .save || a = .freq then s
  else match runningOn s die a with
  | none => s
  | some r =>
    if a = .lace && 256 ≤ r.target && (getLace s (r.target % 256)).capturePending then s
    else finishActivity r (endEffect die ok positions r s)

/-! ## Commands (R453) -/

def putMaintCommand (die v : Nat) (s : State) : State := setMaint s fun m => { m with command := sPut 0 die (BitVec.ofNat 32 v) m.command }

/-- `maint.command` of a die: activity in [3:0], channel, port or quadrant in [15:8]. -/
def maintCommand (die v : Nat) (s : State) : Nat × State :=
  let u := bits 15 8 v
  let run (r : Running) : Nat × State := (0, takeActivity r (putMaintCommand die v s))
  if v / 2 ^ 16 ≠ 0 || bits 7 4 v ≠ 0 then (codeReserved, s)
  else match bits 3 0 v with
  | 0 => if u < 32 then run (channelActivity s .scrub die u) else (codeValueRange, s)
  | 1 => if u < 32 then run (channelActivity s .retrain die u) else (codeValueRange, s)
  | 2 =>
    if 12 ≤ u || u / 3 ≠ die || (getPort s u).state = 0 then (codeValueRange, s)
    else if !portFitted s.fuses.variant u then (codeUnitAbsent, s)
    else run (portActivity u)
  | 4 =>
    if 32 ≤ u || u / 4 ≠ die then (codeValueRange, s)
    else if ownerOf s u ≠ 0 && stepState s (ownerOf s u) ≠ 0 then (codeMaintBusy, s)
    else run (selfTestActivity u)
  | _ => (codeValueRange, s)

def maintRequest (r : Role) (die activity unit : Nat) (s : State) : Host.Outcome State Fault Refusal :=
  let v := activity + unit * 2 ^ 8
  .next (roleRequest none r (0xA500 + die) 3 (leBytes 4 v) (maintCommand die v) s)

def execHbmScrub (r : Role) (die : DieNo) (ch : Fin 32) (s : State) : Host.Outcome State Fault Refusal := maintRequest r die.val 0 ch.val s
def execHbmRetraining (r : Role) (die : DieNo) (ch : Fin 32) (s : State) : Host.Outcome State Fault Refusal :=
  maintRequest r die.val 1 ch.val s
def execPortRetraining (r : Role) (k : PortNo) (s : State) : Host.Outcome State Fault Refusal := maintRequest r (k.val / 3) 2 k.val s
def execTileMemorySelfTest (r : Role) (g : QuadNo) (s : State) : Host.Outcome State Fault Refusal :=
  maintRequest r (g.val / 4) 4 g.val s

/-! ## Schedules -/

/-- Records of a schedule: a key that orders them by rack time and place, and the command. -/
def scheduleOf (s : State) (die : Nat) : List (Nat × Nat) :=
  let d := sGet [] die s.pack.maint.schedule
  (List.range (d.length / 16)).map fun i => (ofLe (bytesAt d (16 * i) 8) * 4096 + i, ofLe (bytesAt d (16 * i + 8) 4))

/-- The first record that has not started. -/
def nextScheduled (s : State) (die : Nat) : Option (Nat × Nat) :=
  let done : Nat := sGet 0 die s.pack.maint.fired
  ((scheduleOf s die).filter fun e => done ≤ e.1).foldl (fun (b : Option (Nat × Nat)) e =>
    match b with
    | none => some e
    | some x => if e.1 < x.1 then some e else b) none

/-- A record whose rack time has come starts its command; what refuses it does not repeat. -/
def fireSchedule (die : Nat) (s : State) : State :=
  match nextScheduled s die with
  | none => s
  | some (k, v) =>
    if s.rackNs.toNat < k / 4096 || !s.pack.start.complete then s
    else (maintCommand die v (setMaint s fun m => { m with fired := sPut 0 die (k + 1) m.fired })).2

def execMaintScheduleFire (die : DieNo) (s : State) : Host.Outcome State Fault Refusal := .next (fireSchedule die.val s)

/-! ## Lacework readback (R341, R454) -/

/-- A self-test runs on the quadrant. -/
def underTest (s : State) (g : Nat) : Bool := s.pack.maint.active.any fun r => r.activity == .selfTest && r.quads.contains g

/-- A read of `lace.config` or `lace.ff_state`: it is answered when the activity ends. -/
def laceReadback (r : Role) (g : Nat) (ff : Bool) (s : State) : State :=
  let sub := if ff then 9 else 8
  let s' := roleRead none r (0x6010 + g) sub (fun s => ([], s)) s
  if s'.reply.status ≠ 0 then s'
  else if underTest s g then answer codeUnderTest [] s'
  else
    let a := laceActivity g
    takeActivity { a with target := g + 256 * b2n ff } s'

def execLaceworkReadback (r : Role) (g : QuadNo) (ff : Bool) (s : State) : Host.Outcome State Fault Refusal :=
  .next (laceReadback r g.val ff s)

end Sys2Proof.Machine
end

