-- ==== Sys2Proof/Machine/Dictionary.lean ====
section
/-! DEFINITION. What every entry of the dictionary reads and what a write of it does (15 R402 to R409, R429, and the entry tables of
the other chapters). -/

namespace Sys2Proof.Machine

/-! ## Readings (R409): what the manual only names is a free value -/

def freeNum (n : Nat) (s : State) : Bytes × State :=
  let (k, s) := takeFree s
  (leBytes n (Config.reading k), s)

/-- A text or byte string of unknown length. -/
def freeStr (most : Nat) (s : State) : Bytes × State :=
  let (k, s) := takeFree s
  let v := Config.reading k
  (leBytes (v % (most + 1)) (v / (most + 1)), s)

def asciiBytes (t : String) : Bytes := t.toList.map fun c => BitVec.ofNat 8 c.toNat

def partName : Variant → String
  | .f8x48 => "GLB-8F-48"
  | .n8x48 => "GLB-8N-48"
  | .f4x36 => "GLB-4F-36"
  | .n4x36 => "GLB-4N-36"
  | .n2x36 => "GLB-2N-36"

/-- Highest of signed temperatures; 0 °C for none. -/
def hottest (ts : List Byte) : Byte :=
  match ts with
  | [] => 0
  | t :: r => r.foldl (fun a b => if a.toInt < b.toInt then b else a) t

def dieTemps (s : State) (d : Nat) : List Byte := (List.range 32).map fun k => (getRegion s (32 * d + k)).temperature

/-! ## Values, chapter by chapter -/

def boolByte (b : Bool) : Bytes := leBytes 1 (b2n b)

def identityValue (sub : Nat) (s : State) : Bytes × State :=
  match sub with
  | 1 => (asciiBytes "Eslor Devices", s)
  | 2 => (asciiBytes (partName s.fuses.variant), s)
  | 3 => (leBytes 8 s.fuses.serial.toNat, s)
  | 4 => ((List.range 8).map fun d => if d < diesOf s.fuses.variant then sGet 0 d s.fuses.dieRevs else 0, s)
  | 5 => freeStr 255 s
  | _ => (leBytes 4 s.pack.start.number.toNat, s)

/-- R5. -/
def presenceValue (sub : Nat) (v : Variant) : Bytes :=
  match sub with
  | 1 => leBytes 1 (2 ^ diesOf v - 1)
  | 2 => leBytes 1 (2 ^ diesOf v - 1)
  | 3 => leBytes 1 (gibOf v)
  | 4 => leBytes 2 (tileRows v)
  | 5 => leBytes 4 (if hasLacework v then 2 ^ quadsOf v - 1 else 0)
  | 6 => leBytes 2 (portMask v)
  | _ => leBytes 1 (ingestMask v)

def dictionaryValue (sub : Nat) : Bytes :=
  match sub with
  | 1 => leBytes 2 1
  | 2 => leBytes 4 entryCount
  | _ => indexList.flatMap fun i => leBytes 2 i

def mgmtValue (sub : Nat) (s : State) : Bytes :=
  let i := s.pack.io
  match sub with
  | 1 => leBytes 8 s.fuses.mac.toNat
  | 2 => leBytes 4 i.ipv4.toNat
  | 3 => leBytes 1 i.ipv4Prefix.toNat
  | 4 => leBytes 4 i.ipv4Gateway.toNat
  | 5 => fixedBytes 16 i.ipv6
  | 6 => leBytes 1 i.ipv6Prefix.toNat
  | 7 => fixedBytes 16 i.ipv6Gateway
  | _ => leBytes 1 i.mgmtLink.toNat

def rolesValue (sub : Nat) (s : State) : Bytes :=
  let r := s.sec.roles
  match sub with
  | 1 => fixedBytes 97 r.installerKey
  | 2 => if r.grant = [] then List.replicate 1696 0 else r.grant
  | 3 => laceKeyBytes s
  | _ => leBytes 8 r.installerNonce.toNat

def auditValue (r : Role) (sub : Nat) (s : State) : Bytes :=
  let a := s.sec.audit
  match sub with
  | 1 => leBytes 8 a.headNumber.toNat
  | 2 => fixedBytes 48 a.headChain
  | 3 => (match r with
    | .operator p => a.kept.flatMap (redact p.val)
    | _ => a.kept.flatMap id)
  | 4 => leBytes 8 a.exportedTo.toNat
  | 5 => fixedBytes 152 a.anchor
  | 6 => leBytes 2 (auditFree a)
  | _ => leBytes 8 a.overwritten.toNat

def startValue (sub : Nat) (s : State) : Bytes :=
  let t := s.pack.start
  match sub with
  | 1 => [t.state]
  | 2 => [t.phase]
  | 3 => leBytes 4 t.number.toNat
  | 4 => [t.command]
  | 5 => [t.journalState]
  | 6 => t.journal.flatMap id
  | 7 => leBytes 4 t.elapsed.toNat
  | 8 => [t.stoppedUnit]
  | _ => leBytes 2 t.seamsCut.toNat

def dieValue (d sub : Nat) (s : State) : Bytes :=
  match sub with
  | 1 => [(getDie s d).state]
  | 2 => [(getDie s d).unavailable]
  | _ => ((repairs s).filter fun a => dieOf a.x a.y = d).flatMap fun a => leBytes 4 (a.x + a.y * 2 ^ 16)

def powerValue (sub : Nat) (s : State) : Bytes :=
  match sub with
  | 1 => leBytes 2 (powerLimit s)
  | 2 => leBytes 2 s.pack.power.package.toNat
  | 3 => leBytes 2 s.fuses.fixedW.toNat
  | 4 => (List.range 25).flatMap fun c => leBytes 2 (quadMaxW s c)
  | 5 => [s.pack.power.protect]
  | _ => leBytes 4 s.pack.power.events.toNat

def clockValue (q : Part) (sub : Nat) : Bytes :=
  let c := q.clock
  match sub with
  | 1 => [c.beat]
  | 2 => [q.active.floor]
  | 3 => [q.active.ceiling]
  | 4 => leBytes 2 ((c.pending.map fun v => v.toNat + 256).getD 0)
  | 5 => leBytes 8 c.due.toNat
  | 6 => leBytes 4 c.down.toNat
  | 7 => leBytes 4 c.up.toNat
  | 8 => leBytes 4 c.deferred.toNat
  | 9 => leBytes 2 c.share.toNat
  | 10 => leBytes 2 c.estimate.toNat
  | 11 => leBytes 8 c.lastChange.toNat
  | _ => [c.throttle]

def regionValue (g : ClockRegion) (sub : Nat) : Bytes :=
  match sub with
  | 1 => [g.margin]
  | 2 => leBytes 2 g.monitors.toNat
  | 3 => [g.above]
  | 4 => [g.temperature]
  | 5 => [g.state]
  | _ => leBytes 4 g.critical.toNat

def pinsValue (sub : Nat) (s : State) : Bytes × State :=
  let q := s.pack.pins
  match sub with
  | 1 => ([q.straps], s)
  | 2 => ([q.lastCause], s)
  | 3 => (leBytes 1 q.refclks.toNat, s)
  | 4 => freeNum 8 s
  | _ => (leBytes 4 q.trips.toNat, s)

def configValue (sub : Nat) (s : State) : Bytes :=
  let c := s.sec.config
  match sub with
  | 1 => [0]
  | 2 => [c.state]
  | 3 => fixedBytes 16 c.refusal
  | _ => leBytes 4 c.generation.toNat

def partitionValue (q : Part) (sub : Nat) : Bytes :=
  match sub with
  | 1 => leBytes 4 q.staged.quads.toNat
  | 2 => [q.staged.floor]
  | 3 => [q.staged.ceiling]
  | 4 => leBytes 2 q.staged.ports.toNat
  | 5 => fixedBytes 97 q.staged.key
  | 6 => boolByte q.staged.vf
  | 7 => leBytes 4 q.active.quads.toNat
  | 8 => leBytes 2 q.active.ports.toNat
  | 9 => leBytes 4 q.keyEpoch.toNat
  | 10 => leBytes 8 q.wallStops.toNat
  | _ => leBytes 8 q.opNonce.toNat

def caerecValue (sub : Nat) (s : State) : Bytes × State :=
  let c := s.sec.caerec
  match sub with
  | 1 => ([c.state], s)
  | 2 => (boolByte c.approved, s)
  | 3 => ([0], s)
  | 4 => freeStr 8192 s
  | 5 => (fixedBytes 97 c.sealKey, s)
  | 6 => freeStr 255 s
  | _ => (leBytes 4 c.failures.toNat, s)

def sealValue (e : Seals) (sub : Nat) : Bytes :=
  match sub with
  | 1 => fixedBytes 288 (e.sealed.getLastD [])
  | 2 => e.sealed.flatMap id
  | 3 => leBytes 8 e.count.toNat
  | _ => leBytes 1 e.queue.length

def firmwareValue (f : Firmware) (sub : Nat) : Bytes :=
  match sub with
  | 1 => f.stage
  | 2 => [0]
  | 3 => [f.state]
  | 4 => fixedBytes 48 f.activeDigest
  | 5 => [f.activeSvn]
  | 6 => [f.stagedSvn]
  | 7 => [f.rollback]
  | _ => boolByte f.exhausted

def holdCode (h : Hold) : Nat :=
  match tileExec h with
  | 4 => 2
  | n => n

def holdValue (h : Hold) (sub : Nat) : Bytes :=
  match sub with
  | 1 => leBytes 8 h.sBeat
  | 2 => leBytes 8 h.wBeat
  | 3 => leBytes 8 h.held
  | 4 => [h.hlat]
  | 5 => leBytes 4 h.limit.toNat
  | 6 => leBytes 1 (holdCode h)
  | 7 => leBytes 4 h.holds.toNat
  | 8 => [h.lastCause]
  | 9 => leBytes 4 h.lastTile.toNat
  | 10 => leBytes 8 h.lastSBeat
  | _ => leBytes 8 h.lastHeld

def streamsValue (c : QuadCounts) (sub : Nat) : Bytes :=
  match sub with
  | 1 => leBytes 8 c.completions.toNat
  | 2 => leBytes 8 c.poisoned.toNat
  | _ => leBytes 4 c.drainLost.toNat

def linksValue (l : Links) (rack : W64) (sub : Nat) : Bytes :=
  match sub with
  | 1 => leBytes 2 l.chipCfg.toNat
  | 2 => laneMapBytes l.laneMap
  | 3 => laneMapBytes l.laneActive
  | 4 => [l.role]
  | 5 => leBytes 4 l.period.toNat
  | 6 => leBytes 8 rack.toNat
  | 7 => [l.syncPort]
  | 8 => [l.syncState]
  | 9 => leBytes 4 l.syncJumps.toNat
  | _ => leBytes 8 l.lastStep.toNat

def portValue (k sub : Nat) (s : State) : Bytes :=
  let q := getPort s k
  match sub with
  | 1 => [q.modeCfg]
  | 2 => leBytes 1 (portOwner s k)
  | 3 => [q.state]
  | 4 => leBytes 1 q.lanes
  | 5 => leBytes 2 (payloadRate q)
  | 6 => leBytes 4 (hopBound q)
  | 7 => leBytes 2 q.rtt.toNat
  | 8 => leBytes 8 q.fecCorrected.toNat
  | 9 => leBytes 8 q.fecBad.toNat
  | 10 => leBytes 8 q.retries.toNat
  | 11 => leBytes 4 q.downs.toNat
  | 12 => leBytes 2 q.peerChip.toNat
  | 13 => [q.peerPort]
  | 16 => fixedBytes 16 q.ipv6
  | 17 => leBytes 8 q.mac.toNat
  | 18 => fixedBytes 288 q.servers
  | 19 => leBytes 2 q.vlan.toNat
  | _ => leBytes 8 q.rxDrops.toNat

def routeValue (p sub : Nat) (s : State) : Bytes :=
  let r := getRoute s p
  match sub with
  | 1 => wordsBytes 4096 r.table
  | 2 => leBytes 4 r.unreachNs.toNat
  | 3 => leBytes 4 r.e2eNs.toNat
  | 4 => leBytes 2 (routeFigures s p).1
  | 5 => leBytes 4 (routeFigures s p).2
  | 6 => bitsBytes 4096 r.unreach
  | 7 => leBytes 8 r.retransmits.toNat
  | _ => leBytes 8 r.transitDrops.toNat

def laceValue (g sub : Nat) (s : State) : Bytes :=
  let v := getLace s g
  match sub with
  | 1 => v.staged
  | 2 => [v.command]
  | 3 => leBytes 1 v.state.toNat
  | 4 => fixedBytes 48 v.digest
  | 5 => leBytes 1 v.ratio.toNat
  | 6 => fixedBytes 16 v.refusal
  | 7 => v.table
  | 8 => windowBytes s (.lace g 0) 0x200000
  | 9 => windowBytes s (.lace g 0x200000) 0x4000
  | _ => leBytes 8 (laceCounts v).toNat

/-! ### Events (R429) -/

/-- The path of a role to the bits of the sources. -/
def pathOf : Role → Option FuncNo
  | .operator p => some p
  | _ => none

/-- Table 15-15, `events.sources`. -/
def sourceTable (s : State) : Bytes :=
  (List.range 1024).flatMap fun i =>
    leBytes 4 (match sourceRing s i with
      | some r => r + b2n (isCondition i) * 32 + 64
      | none => 0)

def eventsValue (sub : Nat) (s : State) : Bytes :=
  match sub with
  | 1 => boolByte s.events.holdoff
  | 2 => leBytes 2 s.events.ibiMask.toNat
  | 3 => sourceTable s
  | _ => leBytes 4 s.events.stray.toNat

def bits1024 (b : BitVec 1024) : Bytes := leBytes 128 b.toNat

def controlValue (r : Role) (sub : Nat) (s : State) : Bytes :=
  let path := pathOf r
  let h := getShadow s path
  match sub with
  | 1 => bits1024 (bitmap s path (·.enable))
  | 2 => bits1024 h.enableSet
  | 3 => bits1024 h.enableClear
  | 4 => bits1024 (bitmap s path (·.pending))
  | 5 => bits1024 h.pendingSet
  | 6 => bits1024 h.pendingClear
  | 7 => bits1024 (bitmap s path (·.active))
  | 8 => leBytes 2 h.complete.toNat
  | _ => bits1024 (bitmap s path (·.line))

/-- Records of an internal ring from `head` to `tail`. -/
def ringRecordBytes (g : Ring) : Bytes :=
  if ringKind g ≠ 3 then []
  else
    let n := ringRecords g
    (List.range ((g.tail.toNat + n - g.head.toNat) % n)).flatMap fun i =>
      (List.range 4).flatMap fun w => leBytes 8 (sGet 0 ((g.head.toNat + i) % n * 4 + w) g.store).toNat

def ringValue (g : Ring) (sub : Nat) : Bytes :=
  match sub with
  | 1 => leBytes 8 g.cfg.toNat
  | 2 => leBytes 8 g.base.toNat
  | 3 => leBytes 2 g.head.toNat
  | 4 => leBytes 2 (g.tail.toNat + b2n g.lap * 4096)
  | 5 => leBytes 4 g.seq.toNat
  | 6 => leBytes 8 (g.records.toNat + g.full.toNat * 2 ^ 32)
  | _ => ringRecordBytes g

/-! ### Patterns, steps, shuttles -/

def patternValue (q : Pattern) (sub : Nat) : Bytes :=
  match sub with
  | 1 => q.image
  | 2 => [q.command]
  | 3 => [q.state]
  | 4 => fixedBytes 48 q.digest
  | 5 => fixedBytes 48 q.expected
  | 6 => fixedBytes 32 q.refusal
  | 7 => leBytes 8 q.worstNs.toNat
  | 8 => [BitVec.ofInt 8 q.a, BitVec.ofInt 8 q.b]
  | 9 => q.peers
  | _ => leBytes 8 q.seed.toNat

def stepValue (q : StepSt) (sub : Nat) : Bytes :=
  match sub with
  | 1 => [q.command]
  | 2 => [q.state]
  | 3 => leBytes 8 q.counter.toNat
  | 4 => leBytes 8 q.target.toNat
  | 5 => [q.retryLimit]
  | 6 => leBytes 4 q.retries.toNat
  | 7 => [q.lastAbort]
  | 8 => fixedBytes 56 q.lastFault
  | 9 => leBytes 8 q.lastNs.toNat
  | 10 => leBytes 4 q.overruns.toNat
  | 11 => leBytes 4 q.mismatch.toNat
  | 12 => leBytes 4 q.interval.toNat
  | 13 => leBytes 8 q.timeoutNs.toNat
  | 14 => fixedBytes 48 q.lineage
  | 15 => fixedBytes 48 q.inputDigest
  | _ => [q.stopReason]

def shuttleValue (h : Shuttle) (sub : Nat) : Bytes :=
  match sub with
  | 1 => leBytes 8 (shuttleStatus h).toNat
  | 2 => leBytes 8 h.requests.toNat
  | 3 => leBytes 1 ((List.range 64).filter fun c => (getChannel h c).opened).length
  | _ => (List.range 16).flatMap fun t => leBytes 8 (threadWord h t).toNat ++ leBytes 8 (getThread h t).pc.toNat

def syncValue (y : Sync) (sub : Nat) : Bytes :=
  match sub with
  | 1 => leBytes 4 y.wallSignals.toNat
  | 2 => leBytes 4 y.broken.toNat
  | 3 => leBytes 4 y.interval.toNat
  | 4 => leBytes 4 y.drift.toNat
  | 5 => leBytes 8 y.lastStep.toNat
  | _ => leBytes 4 y.msgErrors.toNat

/-! ### Telemetry, queues, maintenance, debug, records -/

def telemetryValue (sub : Nat) (s : State) : Bytes × State :=
  match sub with
  | 1 => (leBytes 2 s.pack.power.package.toNat, s)
  | 2 => ([hottest ((List.range (diesOf s.fuses.variant)).flatMap (dieTemps s))], s)
  | 3 => freeNum 1 s
  | _ => (leBytes 8 ((s.nowNs - s.pack.start.began) / 1000000), s)

def forwarderRecord (sd : Side) : Bytes :=
  let stop := (sd.msgStop.head?.map (·.2)).getD false
  let first := sd.fwd.head?
  leBytes 8 ((sd.fwd.map fun m => m.words.length).sum + b2n stop * 2 ^ 15 + sd.fwd.length * 2 ^ 16
      + (first.map fun m => m.x.toNat % 256).getD 0 * 2 ^ 32)
    ++ leBytes 8 ((first.bind fun m => m.words.head?.map fun w => w.data.toNat).getD 0)

/-- Retained packets on the die of a port that left through it, oldest first. -/
def retainedOf (s : State) (k : Nat) : List TxPacket := s.routes.flatMap fun e => e.2.retained.filter fun t => t.port.toNat == k

def portQueues (k : Nat) (s : State) : Bytes :=
  let q := getPort s k
  leBytes 4 q.replay.length ++ leBytes 4 ((q.flows.map fun e => e.2.stored.length).sum) ++ leBytes 4 (retainedOf s k).length
    ++ leBytes 4 q.credits

def portHead (k : Nat) (s : State) : Bytes :=
  match (retainedOf s k).head? with
  | none => List.replicate 32 0
  | some t =>
    leBytes 8 (packetWord0 t.pk) ++ leBytes 8 (packetWord1 t.pk) ++ leBytes 8 (packetWord2 t.pk)
      ++ leBytes 8 (t.pk.operand.toNat + (packetCrc t.pk).toNat * 2 ^ 32)

def maintValue (die sub : Nat) (s : State) : Bytes :=
  let m := s.pack.maint
  match sub with
  | 1 => leBytes 2 (activityBits die m.active)
  | 2 => leBytes 2 (activityBits die m.waiting)
  | 3 => leBytes 4 (sGet 0 die m.command).toNat
  | _ => sGet [] die m.schedule

def debugValue (p sub : Nat) (s : State) : Bytes :=
  let d := (getPart s p).debugging
  match sub with
  | 1 => [d.command]
  | 2 => leBytes 8 d.argument.toNat
  | 3 => [d.state]
  | 4 => [d.onHalt]
  | 5 => boolByte d.stopShuttles
  | 6 => leBytes 8 d.snapArea.toNat
  | 7 => leBytes 4 (match d.snapQuads with
      | some m => m.toNat
      | none => (getPart s p).active.quads.toNat)
  | 8 => fixedBytes 56 d.firstFault
  | 9 => fixedBytes 16 d.knotSet
  | _ => leBytes 8 d.heldWBeats.toNat

def recordValue (p sub : Nat) (s : State) : Bytes :=
  let r := (getPart s p).recd
  match sub with
  | 1 => [r.command]
  | 2 => [r.state]
  | 3 => leBytes 8 r.areaOffset.toNat
  | 4 => leBytes 8 r.areaBytes.toNat
  | 5 => recordBytes s p 0 r.used
  | 6 => leBytes 8 r.divergedStep.toNat
  | 7 => leBytes 8 r.divergedMask.toNat
  | 8 => leBytes 8 r.stallNs.toNat
  | _ => leBytes 8 r.liveDropped.toNat

def getReadback (s : State) (w : Nat) : Readback := sGet {} w s.pack.readback
def updReadback (w : Nat) (f : Readback → Readback) (s : State) : State :=
  { s with pack := { s.pack with readback := sUpd {} w f s.pack.readback } }

def readbackValue (w sub : Nat) (s : State) : Bytes :=
  let b := getReadback s w
  match sub with
  | 1 => leBytes 8 b.base.toNat
  | 3 => leBytes 4 b.poisoned.toNat
  | 4 => leBytes 8 b.first.toNat
  | _ => []

/-! ## Reads -/

/-- An entry whose value the state alone gives. -/
def plainValue (r : Role) (base u sub : Nat) (s : State) : Bytes :=
  match base with
  | 0x0000 => leBytes 4 (tySize u)
  | 0x0110 => presenceValue sub s.fuses.variant
  | 0x0120 => dictionaryValue sub
  | 0x1010 => mgmtValue sub s
  | 0x1020 => if sub = 1 then leBytes 2 s.pack.io.pcieLink.toNat else [16]
  | 0x1030 => if sub = 1 then leBytes 1 (0x48 + s.pack.pins.straps.toNat / 4) else [s.pack.io.i3cDyn]
  | 0x1040 => (match sub with
    | 1 => leBytes 8 s.pack.io.requests.toNat
    | 2 => leBytes 8 s.pack.io.aborts.toNat
    | 3 => leBytes 4 s.pack.io.authFails.toNat
    | _ => leBytes 4 s.pack.io.discarded.toNat)
  | 0x1100 => rolesValue sub s
  | 0x1200 => auditValue r sub s
  | 0x2000 => startValue sub s
  | 0x2100 => dieValue u sub s
  | 0x2200 => powerValue sub s
  | 0x2310 => clockValue (getPart s u) sub
  | 0x2400 => regionValue (getRegion s u) sub
  | 0x3000 => configValue sub s
  | 0x3010 => partitionValue (getPart s u) sub
  | 0x3200 => sealValue (getPart s u).seals sub
  | 0x3300 => firmwareValue s.sec.fw sub
  | 0x4200 => streamsValue (sGet {} u s.quadCounts) sub
  | 0x4310 => holdValue (getPart s u).hold sub
  | 0x5000 => linksValue s.links s.rackNs sub
  | 0x5010 => portValue u sub s
  | 0x5110 => routeValue u sub s
  | 0x6010 => laceValue u sub s
  | 0x7000 => eventsValue sub s
  | 0x7010 => controlValue r sub s
  | 0x7100 => ringValue (getRing s u) sub
  | 0x8010 => patternValue (getPart s u).pattern sub
  | 0x8100 => shuttleValue (getShuttle s u) sub
  | 0x8310 => syncValue (getPart s u).sync sub
  | 0x8410 => stepValue (getPart s u).step sub
  | 0xA010 => readbackValue u sub s
  | 0xA100 => debugValue u sub s
  | 0xA300 => (sidesOfQuad u).flatMap fun k => forwarderRecord (getSide s k)
  | 0xA400 => if sub = 1 then portQueues u s else portHead u s
  | 0xA500 => maintValue u sub s
  | 0xB010 => recordValue u sub s
  | _ => []

/-- The value of an entry for a role. -/
def entryValue (r : Role) (base u sub : Nat) (s : State) : Bytes × State :=
  if sub = 0 then (leBytes 1 (highestSub base), s)
  else match base with
  | 0x0100 => identityValue sub s
  | 0x2600 => pinsValue sub s
  | 0x3100 => caerecValue sub s
  | 0x3110 => if sub = 1 then (fixedBytes 48 s.sec.caerec.nonce, s) else report r s
  | 0x4100 =>
    (match sub with
    | 1 => (leBytes 8 (sGet {} u s.hbmDies : HbmDie).corrected.toNat, s)
    | 2 => (leBytes 8 (sGet {} u s.hbmDies : HbmDie).uncorrected.toNat, s)
    | _ => freeNum 1 s)
  | 0x9000 => telemetryValue sub s
  | 0x9100 => if sub = 1 then ([hottest (dieTemps s u)], s) else freeNum 2 s
  | _ => (plainValue r base u sub s, s)

/-! ## Descriptions (R407, Table 15-3) -/

/-- Ring 0 and readback window 0 belong to no operator, and window p to operator p alone (R429, R430). -/
def operatorNone (base u : Nat) : Bool := u = 0 && (base = 0x7100 || base = 0xA010)
def operatorOnly (base u : Nat) : Bool := u ≠ 0 && base = 0xA010

/-- Role r's rights of an entry, read as bit 0, at bits 2i. -/
def accessByte (base u : Nat) (e : Entry) : Nat :=
  let signed := b2n (!(0x0100 ≤ base && base < 0x1000)) * 64
  (if operatorOnly base u then 0 else bits 9 8 e.acc + bits 5 4 e.acc * 4)
    + (if operatorNone base u then 0 else bits 1 0 e.acc * 16) + signed

def describeBytes (s : State) (base u sub : Nat) (e : Entry) : Bytes :=
  [BitVec.ofNat 8 e.ty, BitVec.ofNat 8 e.cls, BitVec.ofNat 8 (accessByte base u e), BitVec.ofNat 8 (b2n (unitPresent s.fuses.variant base u sub))]
    ++ leBytes 4 e.size ++ leBytes 8 e.dflt

/-- Code and record. -/
def describe (ix sub : Nat) (s : State) : Nat × Bytes :=
  match indexOf ix with
  | none => (codeNoObject, [])
  | some (base, u) =>
    match entryOf base sub with
    | none => (codeNoSubindex, [])
    | some e => (0, describeBytes s base u sub e)

/-! ## Writes -/

def codeLaneMap : Nat := 0xD1050001
def codeRoute : Nat := 0xD1050002

def inRange (ok : Bool) (s : State) : Nat × State := (if ok then 0 else codeValueRange, s)

/-- R289: pairs go to fitted ports of their own die. -/
def laneMapLegal (v : Variant) (d : Bytes) : Bool :=
  ((List.range 48).zip d).all fun e => e.2 == 0xFF || (portFitted v e.2.toNat && e.2.toNat / 3 == e.1 / 12 && decide (e.2.toNat < 12))

/-- R317: no fitted port of another partition. -/
def routesLegal (s : State) (p : Nat) (d : Bytes) : Bool :=
  (bytesWords d).all fun e => (List.range 12).all fun k =>
    !bitAt k e.2.toNat || !portFitted s.fuses.variant k || portOwner s k == p

/-- A write of `route.unreachable_chips`: a 0 clears a bit, a 1 keeps it (R304). -/
def writeUnreachable (p : Nat) (d : Bytes) (s : State) : Nat × State :=
  let keep := bytesBits (fixedBytes 512 d)
  (0, ((getRoute s p).unreach.filter fun e => !sGet false e.1 keep).foldl (fun s e => chipReachable p (BitVec.ofNat 16 e.1) s) s)

def writeRoutes (p : Nat) (d : Bytes) (s : State) : Nat × State :=
  if (bytesWords d).any fun e => 4096 ≤ e.2.toNat then (codeReserved, s)
  else if !routesLegal s p d then (codeRoute, s)
  else
    let s := putStored 0x5110 p 1 d s
    (0, trackRoutes p ((getRoute s p).unreach.foldl (fun s e => chipReachable p (BitVec.ofNat 16 e.1) s) s))

/-- A write of the one entry of a chip. -/
def writeRouteEntry (p chip : Nat) (ports : W16) (s : State) : Nat × State :=
  let d := leBytes 2 ports.toNat
  if 4096 ≤ ports.toNat then (codeReserved, s)
  else if !routesLegal s p d then (codeRoute, s)
  else
    let s := updRoute s p fun r => { r with table := sPut 0 chip ports r.table }
    (0, trackRoutes p (chipReachable p (BitVec.ofNat 16 chip) s))

/-- Checks of the stored entries that hold a plain value: 0 where the value is in range. -/
def storedCheck (base u sub : Nat) (d : Bytes) (s : State) : Nat :=
  let v := ofLe d
  let range (ok : Bool) : Nat := if ok then 0 else codeValueRange
  let zero (bad : Bool) : Nat := if bad then codeReserved else 0
  match base, sub with
  | 0x1010, 3 => range (v ≤ 32)
  | 0x1010, 6 => range (v ≤ 128)
  | 0x3010, 4 => zero (4096 ≤ v)
  | 0x5000, 1 => range (v ≤ 4095)
  | 0x5000, 2 => if laneMapLegal s.fuses.variant d then 0 else codeLaneMap
  | 0x5000, 4 => range (v ≤ 1)
  | 0x5000, 5 => range (10000 ≤ v && v ≤ 1000000000)
  | 0x5000, 7 => range (v ≤ 11 || v = 15)
  | 0x5010, 1 => if v = 1 && !(10 ≤ u && bitAt (u - 10) (ingestMask s.fuses.variant)) then codeUnitAbsent else range (v ≤ 1)
  | 0x5010, 17 => zero (2 ^ 48 ≤ v)
  | _, _ => 0

/-- Schedule records of the past do not start. -/
def writeSchedule (die : Nat) (d : Bytes) (s : State) : State :=
  setMaint (putStored 0xA500 die 4 d s) fun m => { m with fired := sPut 0 die (s.rackNs.toNat * 4096) m.fired }

/-- The effect of a write of a class 3 entry. -/
def storedWrite (base u sub : Nat) (d : Bytes) (s : State) : Nat × State :=
  match base, sub with
  | 0x1100, 1 => writeInstallerKey d s
  | 0x1200, 4 => writeExported (num d 64) s
  | 0x1200, 5 => requestAnchor s
  | 0x2200, 1 => writeLimit (num d 16) s
  | 0x2310, 9 => writeShare u (num d 16) s
  | 0x5110, 1 => writeRoutes u d s
  | 0x5110, 6 => writeUnreachable u d s
  | 0xA500, 4 => if d.length % 16 = 0 then (0, writeSchedule u d s) else (codeValueRange, s)
  | _, _ =>
    let c := storedCheck base u sub d s
    if c = 0 then (0, putStored base u sub d s) else (c, s)

/-- Bits of the sources that an operator may write (R429). -/
def foreignBits (s : State) (path : Option FuncNo) (b : Nat) : Bool :=
  path.isSome && (List.range 1024).any fun i => bitAt i b && !covers s path i

def writeControl (r : Role) (sub : Nat) (d : Bytes) (s : State) : Nat × State :=
  let path := pathOf r
  let b : BitVec 1024 := num d 1024
  if sub ≠ 8 && foreignBits s path (ofLe d) then (codeRoleRefused, s)
  else match sub with
  | 2 => (0, writeCtl (.enableSet path b) s)
  | 3 => (0, writeCtl (.enableClear path b) s)
  | 5 => (0, writeCtl (.pendingSet path b) s)
  | 6 => (0, writeCtl (.pendingClear path b) s)
  | _ => if 1024 ≤ ofLe d then (codeReserved, s) else (0, writeCtl (.complete path (num d 10)) s)

def writeRing (r sub : Nat) (d : Bytes) (s : State) : Nat × State :=
  match sub with
  | 1 => if ofLe d / 2 ^ 20 ≠ 0 || bits 3 2 (ofLe d) ≠ 0 then (codeReserved, s) else writeRingCfg r (num d 64) s
  | 2 => writeRingBase r (num d 64) s
  | _ => if 4096 ≤ ofLe d then (codeReserved, s) else (0, writeRingHead r (num d 12) s)

def writePattern (p sub : Nat) (d : Bytes) (s : State) : Nat × State :=
  match sub with
  | 1 =>
    if replaying s p then (codeReplaying, s)
    else (0, updPattern s p fun q => { q with image := d, state := if q.state = 2 then 2 else if d.isEmpty then 0 else 1 })
  | 2 => patternCommand p (ofLe d) true s
  | 5 => (0, updPattern s p fun q => { q with expected := if allZero d then [] else d })
  | 9 => (0, updPattern s p fun q => { q with peers := d })
  | _ => (0, updPattern s p fun q => { q with seed := num d 64 })

def writeStep (r : Role) (p sub : Nat) (d : Bytes) (s : State) : Nat × State :=
  match sub with
  | 1 => stepCommand p r (ofLe d) s
  | 3 =>
    if 2 ^ 48 ≤ ofLe d then (codeReserved, s)
    else if stepState s p ≠ 1 && stepState s p ≠ 4 then (codePartitionBusy, s)
    else (0, updStep s p fun q => { q with counter := num d 48 })
  | 4 => (0, updStep s p fun q => { q with target := num d 64 })
  | 5 => (0, updStep s p fun q => { q with retryLimit := num d 8 })
  | 12 => (0, updStep s p fun q => { q with interval := num d 32 })
  | _ => (0, updStep s p fun q => { q with timeoutNs := num d 64 })

def writeDebug (p sub : Nat) (d : Bytes) (s : State) : Nat × State :=
  match sub with
  | 1 => debugCommand p (ofLe d) s
  | 2 => (0, updDebug s p fun x => { x with argument := num d 64 })
  | 4 => if 2 < ofLe d then (codeValueRange, s) else (0, updDebug s p fun x => { x with onHalt := num d 8 })
  | 5 => (0, updDebug s p fun x => { x with stopShuttles := ofLe d ≠ 0 })
  | 6 => (0, updDebug s p fun x => { x with snapArea := num d 64 })
  | 7 => (0, updDebug s p fun x => { x with snapQuads := some (num d 32) })
  | _ => setKnot p (num (d.take 8) 64) (num (d.drop 8) 64) s

def writeRecording (p sub : Nat) (d : Bytes) (s : State) : Nat × State :=
  match sub with
  | 1 => recordCommand p (ofLe d) s
  | 3 => (0, updRecd s p fun x => { x with areaOffset := num d 64 })
  | 4 => (0, updRecd s p fun x => { x with areaBytes := num d 64 })
  | 5 => writeRecordData p d s
  | _ => (0, updRecd s p fun x => { x with stallNs := num d 64 })

/-- R272: a change of the hold limit is evaluated at the next boundary. -/
def writeHoldLimit (p : Nat) (d : Bytes) (s : State) : Nat × State :=
  if ofLe d < 65536 then (codeValueRange, s)
  else
    let s := updHold s p fun h => { h with limit := num d 32 }
    (0, updStep s p fun q => { q with reeval := true })

/-- Entries of a partition whose writes reach its state (R449): those are stamped inputs. -/
def stampedEntry (base : Nat) : Bool :=
  base == 0x4310 || base == 0x5010 || base == 0x5110 || base == 0x6010 || base == 0x8010 || base == 0x8310 || base == 0x8410

/-- Target word of a stamped write of an entry (log 25). -/
def stampTarget (ix sub : Nat) : Nat := 2 ^ 63 + ix * 256 + sub

/-- The write of an entry of the other classes. -/
def volatileWrite (r : Role) (base u sub : Nat) (d : Bytes) (s : State) : Nat × State :=
  match base with
  | 0x1100 => writeGrant d s
  | 0x2000 => startControl (ofLe d) [] s
  | 0x2200 => writeProtect (ofLe d) s
  | 0x3000 => configCommand (ofLe d) s
  | 0x3100 => caerecCommand (ofLe d) s
  | 0x3110 => writeNonce d s
  | 0x3300 => if sub = 1 then (0, setFw s fun f => { f with stage := d }) else firmwareCommand (ofLe d) s
  | 0x4310 => writeHoldLimit u d s
  | 0x6010 =>
    (match sub with
    | 1 => (0, updLace s u fun v => { v with staged := d })
    | 2 => laceCommand r u (ofLe d) s
    | _ => (0, s))
  | 0x7000 => (0, { s with events := { s.events with holdoff := ofLe d ≠ 0 } })
  | 0x7010 => writeControl r sub d s
  | 0x7100 => writeRing u sub d s
  | 0x8010 => writePattern u sub d s
  | 0x8310 => (0, updPart s u fun q => { q with sync := { q.sync with interval := num d 32 } })
  | 0x8410 => writeStep r u sub d s
  | 0xA010 =>
    if sub ≠ 1 then (codeReadOnly, s)
    else (0, updReadback u (fun b => { b with base := num d 64 }) s)
  | 0xA100 => writeDebug u sub d s
  | 0xA500 => maintCommand u (ofLe d) s
  | 0xB010 => writeRecording u sub d s
  | _ => (codeReadOnly, s)

/-- A write of an entry is made: a stored one is due for a copy with its old value kept, and one that reaches partition state is stamped
(R406, R449). -/
def writeWith (ix base u sub : Nat) (stored : Bool) (old d : Bytes) (effect : State → Nat × State) (s : State) : Nat × State :=
  let (c, s') := if stored then storedEffect ix sub old effect s else effect s
  let p := (entryOwner s base u).getD 0
  if c = 0 && stampedEntry base && p ≠ 0 then (0, stampInput p (stampTarget ix sub) d s') else (c, s')

/-- The effect of a write of an entry that has passed checks 1 to 7 of R413, but for its range. -/
def entryWrite (r : Role) (ix base u sub : Nat) (e : Entry) (d : Bytes) (s : State) : Nat × State :=
  writeWith ix base u sub (e.cls = 3 && !(base = 0x1200 && sub = 5)) (entryValue r base u sub s).1 d
    (if e.cls = 3 then storedWrite base u sub d else volatileWrite r base u sub d) s

/-- A write by its names, for a role whose request has been verified. -/
def writeByName (tr : Option Transport) (r : Role) (ix sub : Nat) (d : Bytes) (s : State) : State :=
  roleRequest tr r ix sub d (fun s =>
    match indexOf ix with
    | none => (codeNoObject, s)
    | some (base, u) =>
      match entryOf base sub with
      | none => (codeNoSubindex, s)
      | some e => entryWrite r ix base u sub e d s) s

/-- A read by its names. -/
def readByName (tr : Option Transport) (r : Role) (ix sub : Nat) (s : State) : State :=
  roleRead tr r ix sub (fun s =>
    match indexOf ix with
    | none => ([], s)
    | some (base, u) => entryValue r base u sub s) s

end Sys2Proof.Machine
end

