-- ==== Sys2Proof/Machine/Dxp.lean ====
section
/-! DEFINITION. DXP frames, their checks, sessions and transports (15 R411 to R418), readback windows (16 R430 to R432), the flash
grants and maintenance ends that let a waiting request be answered, and register writes. -/

namespace Sys2Proof.Machine

/-! ## Frames (Tables 15-7 and 15-8) -/

def opRead : Nat := 1
def opWrite : Nat := 2
def opSegRead : Nat := 3
def opInitiate : Nat := 4
def opSegWrite : Nat := 5
def opDescribe : Nat := 6
def opCancel : Nat := 7

def isSigned (f : DxpFrame) : Bool := bitAt 0 f.flags.toNat
def isLast (f : DxpFrame) : Bool := bitAt 1 f.flags.toNat

def headerBytes (f : DxpFrame) : Bytes :=
  leBytes 2 f.magic.toNat ++ [f.version, f.op, f.flags, f.role, f.partition, f.rsv7] ++ leBytes 4 f.requestId.toNat
    ++ leBytes 2 f.index.toNat ++ [f.subindex, f.rsv15] ++ leBytes 4 f.offset.toNat ++ leBytes 2 f.length.toNat
    ++ leBytes 2 f.rsv22.toNat ++ leBytes 8 f.nonce.toNat

/-- The data that the header declares. -/
def frameData (f : DxpFrame) : Bytes := f.data.take f.length.toNat

/-- What a request's signature signs: the request with its signature zeroed (R382). -/
def signedBytes (f : DxpFrame) : Bytes := headerBytes f ++ frameData f ++ List.replicate 96 0

/-- A frame of at least 32 bytes. -/
def parseFrame (b : Bytes) : DxpFrame :=
  let byte (i : Nat) : Byte := b.getD i 0
  let n := ofLe (bytesAt b 20 2)
  { magic := BitVec.ofNat 16 (ofLe (bytesAt b 0 2)), version := byte 2, op := byte 3, flags := byte 4, role := byte 5
    partition := byte 6, rsv7 := byte 7, requestId := BitVec.ofNat 32 (ofLe (bytesAt b 8 4))
    index := BitVec.ofNat 16 (ofLe (bytesAt b 12 2)), subindex := byte 14, rsv15 := byte 15
    offset := BitVec.ofNat 32 (ofLe (bytesAt b 16 4)), length := BitVec.ofNat 16 n
    rsv22 := BitVec.ofNat 16 (ofLe (bytesAt b 22 2)), nonce := n64 (ofLe (bytesAt b 24 8))
    data := (b.drop 32).take n, signature := if bitAt 0 (byte 4).toNat then (b.drop (32 + n)).take 96 else [] }

/-- R412. -/
def responseBytes (f : DxpFrame) (code : Nat) (last : Bool) (data : Bytes) : Bytes :=
  headerBytes { f with flags := BitVec.ofNat 8 (4 + 2 * b2n last), role := 0, partition := 0, rsv7 := 0, rsv15 := 0, rsv22 := 0
                       length := BitVec.ofNat 16 data.length, nonce := n64 code } ++ data

/-- Check 1 of R413: the frame is discarded unanswered. -/
def noFrame (f : DxpFrame) : Bool :=
  f.magic ≠ 0x5844 || f.version ≠ 1 || f.data.length < f.length.toNat || (isSigned f && f.signature.length < 96)

/-- Data limits of the transports. -/
def dataLimit : Transport → Nat
  | .mgmt _ _ => 1024
  | .pcie _ => 3968
  | .i3c => 32

/-- Check 2 of R413. The data of an initiate and of a segment read have one length (log 26). -/
def badFrame (tr : Transport) (f : DxpFrame) : Bool :=
  f.op = 0 || 7 < f.op.toNat || 8 ≤ f.flags.toNat || f.rsv7 ≠ 0 || f.rsv15 ≠ 0 || f.rsv22 ≠ 0 || dataLimit tr < f.length.toNat
    || (f.op.toNat = opInitiate && f.length ≠ 52) || (f.op.toNat = opSegRead && f.length ≠ 4)

/-! ## Credentials (R381 to R383) -/

/-- Square root modulo the field prime, where there is one. -/
def ecSqrt (a : Nat) : Nat := powMod ecP 384 (a % ecP) ((ecP + 1) / 4)

/-- The public keys, of 97 bytes, under which a signature over a digest verifies. -/
def recoverKeys (digest sig : Bytes) : List Bytes :=
  let r := ofBe (sig.take 48)
  let t := ofBe ((sig.drop 48).take 48)
  if r = 0 || ecN ≤ r then []
  else
    let w := invMod ecN r
    [r, r + ecN].flatMap fun x =>
      let y2 := (x * x * x + 3 * (ecP - x % ecP) + ecB) % ecP
      let y := ecSqrt y2
      if ecP ≤ x || y * y % ecP ≠ y2 then []
      else [y, ecP - y].filterMap fun y =>
        (ecSum (subMod ecN 0 (ofBe digest * w)) ecG (t * w % ecN) (x, y)).map fun q =>
          0x04 :: (beBytes 48 q.1 ++ beBytes 48 q.2)

/-- R383: the request is signed with the key that the grant names. -/
def makerSigned (s : State) (f : DxpFrame) : Bool :=
  let digest := sha384 (signedBytes f)
  (recoverKeys digest f.signature).any fun k => sha384 k == bytesAt s.sec.roles.grant 0 48 && ecdsaOk k digest f.signature

/-- The role that a frame names; an operator is named by its partition. -/
def roleOf (f : DxpFrame) : Role :=
  match f.role.toNat with
  | 1 => .maker
  | 2 => .installer
  | 3 => if 1 ≤ f.partition.toNat && f.partition.toNat ≤ 16 then .operator (Fin.ofNat 17 f.partition.toNat) else .operator 0
  | _ => .none

/-- The credential under which a request's signature verifies. The frame's own partition comes first. -/
def signer (s : State) (f : DxpFrame) : Option Role :=
  let ok (key : Bytes) : Bool := !allZero key && sigOk key (signedBytes f) f.signature
  match roleOf f with
  | .none => none
  | .maker => if makerSigned s f then some .maker else none
  | .installer => if ok s.sec.roles.installerKey then some .installer else none
  | .operator p =>
    ((p.val :: partNumbers).find? fun q => q ≠ 0 && ok (getPart s q).active.key).map fun q => .operator (Fin.ofNat 17 q)

def lastNonce (s : State) : Role → W64
  | .none => 0
  | .maker => s.sec.roles.makerNonce
  | .installer => s.sec.roles.installerNonce
  | .operator p => (getPart s p.val).opNonce

def acceptNonce (r : Role) (n : W64) (s : State) : State :=
  match r with
  | .none => s
  | .maker => setRoles s fun c => { c with makerNonce := n }
  | .installer => setRoles s fun c => { c with installerNonce := n }
  | .operator p => updPart s p.val fun q => { q with opNonce := n }

/-- R364: the module checks credentials once P2 has completed. -/
def credentialsReady (s : State) : Bool := s.pack.start.complete || 2 < s.pack.start.phase.toNat

/-- Check 5 of R413, and whether the credential is that of the frame's partition. -/
def authenticate (f : DxpFrame) (s : State) : Nat × Bool × State :=
  if moduleDown s || !credentialsReady s then (codeModuleError, true, s)
  else if roleOf f = .maker && s.sec.roles.grant = [] then (codeGrantExpired, true, s)
  else if !isSigned f then (codeBadSignature, true, s)
  else match signer s f with
  | none => (codeBadSignature, true, s)
  | some r =>
    if f.nonce.toNat ≤ (lastNonce s r).toNat then (codeStaleNonce, true, s)
    else (0, r == roleOf f, acceptNonce r f.nonce s)

/-- R417: roles that a mailbox does not accept. -/
def mailboxRefuses (tr : Transport) (r : Role) : Bool :=
  match tr with
  | .pcie f => if f.val = 0 then r ≠ .maker && r ≠ .installer else r ≠ .operator f
  | _ => false

/-! ## Readback windows (R430 to R432, R454) -/

def codePartitionAt (s : State) (r : Region) : Nat := ((dataQuad r).map fun g => ownerOf s g).getD 0

/-- Why a word of a readback is refused; 0 for none. -/
def readbackRefusal (s : State) (r : Role) (o : Nat) : Nat :=
  let reg := regionFor s (.dxp r) o
  if reg = .unmapped || 2 ^ 48 ≤ o then codeUnmapped
  else if !mayReach s reg (.dxp r) then codeRoleRefused
  else match dataQuad reg with
  | some g =>
    if underTest s g then codeUnderTest
    else (match reg with
      | .lace _ _ => if (getLace s g).state = 1 then codeLaceBusy else 0
      | _ => 0)
  | none => 0

/-- One 64-bit word through the readback path; a sector counts when its first word, or the transfer's first, is read. -/
def readbackWord (w : Nat) (r : Role) (first : Bool) (o : Nat) (s : State) : Bytes × State :=
  match regionFor s (.dxp r) o with
  | .hbm g off =>
    let (d, p, s) := readHbm g off 8 .clean s
    if p && (off % 32 = 0 || first) then
      (d, updReadback w (fun b => { b with poisoned := b.poisoned + 1, first := if b.poisoned = 0 then n64 (o / 32 * 32) else b.first }) s)
    else (d, s)
  | _ =>
    let (a, s) := readOffset (.dxp r) o 8 .clean s
    (fixedBytes 8 a.data, s)

/-- A segment of `readback.data`: code and bytes. -/
def readbackSegment (w : Nat) (r : Role) (off n : Nat) (s : State) : Nat × Bytes × State :=
  let base := (getReadback s w).base.toNat
  let places := (List.range (n / 8)).map fun i => base + off + 8 * i
  if base % 8 ≠ 0 || off % 8 ≠ 0 || n % 8 ≠ 0 then (codeMisaligned, [], s)
  else match places.find? fun o => readbackRefusal s r o ≠ 0 with
  | some o =>
    let c := readbackRefusal s r o
    (c, [], if c = codeRoleRefused then countWall (.dxp r) s else s)
  | none =>
    let s := if off = 0 then updReadback w (fun b => { b with poisoned := 0 }) s else s
    let (d, s) := places.foldl (fun (acc : Bytes × State) o =>
      let (d, s) := readbackWord w r (decide (off = 0 && o = base)) o acc.2
      (acc.1 ++ d, s)) ([], s)
    (0, d, s)

/-- Windows that a segmented write of `readback.data` writes (R432). -/
def readbackWrites : Region → Bool
  | .hbm _ _ => true
  | .shuttleMem _ _ => true
  | .tile _ _ _ => true
  | _ => false

def readbackWriteRefusal (s : State) (r : Role) (o : Nat) : Nat :=
  let reg := regionFor s (.dxp r) o
  let p := codePartitionAt s reg
  let st := stepState s p
  let c := readbackRefusal s r o
  if c ≠ 0 then c
  else if !readbackWrites reg then codeRoleRefused
  else if p ≠ 0 && replaying s p then codeReplaying
  else if p ≠ 0 && !(st == 0 || st == 1 || st == 4 || st == 6) then codePartitionBusy
  else 0

/-- Stamped input bytes, in entries of at most 65,536 (Table 16-7). -/
def stampData (p o : Nat) : Nat → Bytes → State → State
  | 0, _, s => s
  | fuel + 1, d, s => if d.isEmpty then s else stampData p (o + 65536) fuel (d.drop 65536) (stampInput p o (d.take 65536) s)

/-- A write of a role's data at an offset: a status of Table 8-3. -/
def readbackPut (r : Role) (o : Nat) (d : Bytes) (s : State) : Nat × State :=
  let (a, s) := writeOffset noBell (.dxp r) o d false s
  (statusTo (.dxp r) a.status, s)

def readbackWrite (w : Nat) (r : Role) (off : Nat) (data : Bytes) (s : State) : Nat × State :=
  let at_ := (getReadback s w).base.toNat + off
  let words := (List.range (data.length / 8)).map fun i => at_ + 8 * i
  if at_ % 8 ≠ 0 || off % 8 ≠ 0 || data.length % 8 ≠ 0 then (codeMisaligned, s)
  else match words.find? fun o => readbackWriteRefusal s r o ≠ 0 with
  | some o => (readbackWriteRefusal s r o, s)
  | none =>
    let (code, s) := words.foldl (fun (acc : Nat × State) o =>
      if acc.1 ≠ 0 then acc else readbackPut r o (bytesAt data (o - at_) 8) acc.2) (0, s)
    let p := codePartitionAt s (classify s.fuses.variant at_)
    (code, if code = 0 && p ≠ 0 then stampData p at_ (data.length / 65536 + 1) data s else s)

/-! ## Sessions (R415) -/

def isMgmt : Transport → Bool
  | .mgmt _ _ => true
  | _ => false

def getSession (s : State) (tr : Transport) : Session := ((s.pack.io.sessions.find? fun e => e.1 == tr).map (·.2)).getD {}

/-- The least recently used management session is dropped when there are more than 64. -/
def dropSession (l : List (Transport × Session)) : List (Transport × Session) :=
  if (l.filter fun e => isMgmt e.1).length ≤ 64 then l else l.eraseP fun e => isMgmt e.1

/-- The session, now the most recently used. -/
def putSession (tr : Transport) (x : Session) (s : State) : State :=
  updIo s fun i => { i with sessions := dropSession ((i.sessions.filter fun e => e.1 ≠ tr) ++ [(tr, x)]) }

def updSession (tr : Transport) (f : Session → Session) (s : State) : State := putSession tr (f (getSession s tr)) s

/-- The response reaches its requester. -/
def deliver (tr : Transport) (b : Bytes) (s : State) : State :=
  match tr with
  | .mgmt a p => putOut (.mgmt a p b) s
  | .pcie f => updMailbox f.val (fun m => { m with response := writeBytes 0 0 b m.response, respLen := BitVec.ofNat 13 b.length, state := 2 }) s
  | .i3c => s

/-- The counts of an answered request, and the event of a failed authentication (Tables 15-5 and 15-11). -/
def countAnswer (code : Nat) (s : State) : State :=
  let bad := code == codeBadSignature || code == codeStaleNonce
  let s := updIo s fun i => { i with requests := i.requests + 1, aborts := if code = 0 then i.aborts else i.aborts + 1
                                     authFails := if bad then i.authFails + 1 else i.authFails }
  if bad then assertEvent 0x30A (s.pack.io.authFails.setWidth 64) s else s

/-- A request is answered, and its response is kept. -/
def respond (tr : Transport) (f : DxpFrame) (code : Nat) (last : Bool) (data : Bytes) (s : State) : State :=
  let b := responseBytes f code last data
  let s := updSession tr (fun x => { x with lastReq := some f, lastResp := b }) (countAnswer code s)
  answer code data (deliver tr b s)

def countDiscard (s : State) : State := updIo s fun i => { i with discarded := i.discarded + 1 }

/-! ## One request (R413, R414) -/

/-- What serving a request gives: answered now, or when flash commands or a lacework readback have ended. -/
inductive Served
  | done (code : Nat) (last : Bool) (data : Bytes)
  | flash
  | lace (target : Nat)
  deriving DecidableEq, Repr

/-- Operations 3 to 5 serve such an entry, and 1 and 2 do not. -/
def segmented (tr : Transport) (e : Entry) : Bool :=
  e.ty = tyDomain || ((e.ty = tyBlob || e.ty = tyStr) && dataLimit tr < e.size)

/-- Checks 3 and 4 of R413. -/
def presentCheck (s : State) (ix sub : Nat) (unit : Bool) : Nat :=
  if notStarted s ix then codeNotStarted
  else match indexOf ix with
  | none => codeNoObject
  | some (base, u) =>
    match entryOf base sub with
    | none => codeNoSubindex
    | some _ => if unit && !unitPresent s.fuses.variant base u sub then codeUnitAbsent else 0

/-- The audit record of a write, or of a read by the maker, that passed check 4 and ends with `code`, 0 for success (R388). -/
def refused (tr : Transport) (r : Role) (ix sub : Nat) (write : Bool) (value : Bytes) (code : Nat) (s : State) : State :=
  if write || r = .maker then
    let kind := if !write then kindRead else if isCommandEntry ((indexOf ix).map (·.1) |>.getD 0) sub then kindCommand else kindWrite
    auditAppend { role := roleCode r, part := rolePart r, transport := transportCode (some tr), index := ix, sub := sub, kind := kind
                  result := code, value := value } s
  else s

/-- Checks 5 and 6, the latter as far as the entry's rights go: 0 when they pass. -/
def passChecks (tr : Transport) (f : DxpFrame) (write : Bool) (s : State) : Nat × State :=
  let ix := f.index.toNat
  let r := roleOf f
  let (c, own, s) := if (readsUnsigned ix && !write) || r = .none then (0, true, s) else authenticate f s
  if c ≠ 0 then (c, s)
  else if !own || mailboxRefuses tr r then (codeRoleRefused, s)
  else (accessCheck s r ix f.subindex.toNat write, s)

/-- A write, once its request has been verified: it is answered when the flash commands that it queued have completed. -/
def writeServed (tr : Transport) (before : State) (s : State) : Served × State :=
  let code := s.reply.status.toNat
  if code = 0 && before.pack.pins.flash.length < s.pack.pins.flash.length then
    (.flash, { updSession tr (fun x => { x with ahead := s.pack.pins.flash.length }) s with reply := before.reply })
  else (.done code false [], s)

/-- The write of a value by a role: `readback.data` goes to its window. -/
def writeValue (tr : Option Transport) (r : Role) (ix sub : Nat) (d : Bytes) (s : State) : State :=
  match indexOf ix with
  | some (0xA010, w) => if sub = 2 then roleRequest tr r ix 2 d (readbackWrite w r 0 d) s else writeByName tr r ix sub d s
  | _ => writeByName tr r ix sub d s

/-- In the delivered state one write needs no signature (R381). -/
def firstKey (s : State) (tr : Transport) (f : DxpFrame) : Bool :=
  delivered s && f.index = 0x1100 && f.subindex = 1 && !isSigned f && (match tr with
    | .pcie g => g.val == 0
    | _ => true)

def serveWrite (tr : Transport) (f : DxpFrame) (e : Entry) (s : State) : Served × State :=
  let ix := f.index.toNat
  let sub := f.subindex.toNat
  let d := frameData f
  let r := roleOf f
  if firstKey s tr f then writeServed tr s (unsignedKey (some tr) d s)
  else
    let (c, s) := passChecks tr f true s
    let c := if c = 0 && segmented tr e then codeTypeLength else c
    if c ≠ 0 then (.done c false [], refused tr r ix sub true d c s)
    else writeServed tr s (writeByName (some tr) r ix sub d s)

def serveRead (tr : Transport) (f : DxpFrame) (e : Entry) (s : State) : Served × State :=
  let r := roleOf f
  let ix := f.index.toNat
  let sub := f.subindex.toNat
  let (c, s) := passChecks tr f false s
  let c := if c = 0 && segmented tr e then codeTypeLength else c
  if c ≠ 0 then (.done c false [], refused tr r ix sub false [] c s)
  else
    let s := readByName (some tr) r ix sub s
    (.done s.reply.status.toNat false s.reply.data, s)

def endTransfer (tr : Transport) (s : State) : State := updSession tr (fun x => { x with transfer := none }) s

def wrongSegment (tr : Transport) (s : State) : Served × State := (.done codeTransferState false [], endTransfer tr s)

/-- The bytes of a segment at `off`, at most `n`: code, whether they reach the end of the value, and the bytes. -/
def segmentBytes (r : Role) (ix sub off n : Nat) (s : State) : Nat × Bool × Bytes × State :=
  let part (v : Bytes) (s : State) : Nat × Bool × Bytes × State := (0, decide (v.length ≤ off + n), (v.drop off).take n, s)
  match indexOf ix with
  | none => (codeNoObject, false, [], s)
  | some (base, u) =>
    if base = 0xA010 && sub = 2 then
      let (c, d, s) := readbackSegment u r off n s
      (c, decide (2 ^ 48 ≤ (getReadback s u).base.toNat + off + n), d, s)
    else if base = 0x6010 && sub = 8 then part (laceRead s u) s
    else if base = 0x6010 && sub = 9 then part (laceRead s (u + 256)) s
    else
      let (v, s) := entryValue r base u sub s
      part v s

/-- A segment of the open read transfer is answered; a refusal other than of a busy tile ends it (R431). -/
def answerSegment (tr : Transport) (t : Transfer) (n : Nat) (s : State) : Served × State :=
  let (c, last, d, s) := segmentBytes t.role t.index.toNat t.sub.toNat t.next n s
  if c ≠ 0 then (.done c false [], if c = codeTileBusy then s else endTransfer tr s)
  else
    let t := { t with next := t.next + d.length, since := s.nowNs }
    (.done 0 last d, updSession tr (fun x => { x with transfer := if last then none else some t }) s)

def wantedBytes (tr : Transport) (f : DxpFrame) : Nat := min (ofLe (frameData f)) (dataLimit tr)

/-- A lacework readback begins (R341, R454): code, and the activity's target. -/
def openLace (s : State) (ix sub : Nat) : Option (Nat × Nat) :=
  match indexOf ix with
  | some (0x6010, g) =>
    if sub ≠ 8 && sub ≠ 9 then none
    else
      let c := if underTest s g then codeUnderTest else if (getLace s g).state = 1 then codeLaceBusy else 0
      some (c, g + 256 * b2n (sub = 9))
  | _ => none

/-- A read transfer opens with a verified request. -/
def openRead (tr : Transport) (f : DxpFrame) (n : Nat) (s : State) : Served × State :=
  let t : Transfer := { write := false, index := f.index, sub := f.subindex, next := 0, total := 0, digest := [], data := []
                        role := roleOf f, since := s.nowNs }
  let s := updSession tr (fun x => { x with transfer := some t }) s
  match openLace s f.index.toNat f.subindex.toNat with
  | some (0, target) => (.lace target, takeActivity { laceActivity (target % 256) with target := target } s)
  | some (c, _) => (.done c false [], endTransfer tr s)
  | none => answerSegment tr t n s

def serveSegRead (tr : Transport) (f : DxpFrame) (e : Entry) (s : State) : Served × State :=
  let r := roleOf f
  let ix := f.index.toNat
  let sub := f.subindex.toNat
  let n := wantedBytes tr f
  match (getSession s tr).transfer with
  | some t =>
    if t.write || t.index ≠ f.index || t.sub ≠ f.subindex || t.next ≠ f.offset.toNat then wrongSegment tr s
    else answerSegment tr t n s
  | none =>
    if f.offset ≠ 0 then wrongSegment tr s
    else
      let (c, s) := passChecks tr f false s
      let c := if c = 0 && !segmented tr e then codeTypeLength else c
      let s := refused tr r ix sub false [] c s
      if c ≠ 0 then (.done c false [], s) else openRead tr f n s

def serveInitiate (tr : Transport) (f : DxpFrame) (e : Entry) (s : State) : Served × State :=
  let r := roleOf f
  let ix := f.index.toNat
  let sub := f.subindex.toNat
  let d := frameData f
  let (c, s) := passChecks tr f true s
  let c := if c = 0 && !segmented tr e then codeTypeLength else c
  if c ≠ 0 then (.done c false [], refused tr r ix sub true [] c s)
  else if (getSession s tr).transfer.isSome then
    let (v, s) := wrongSegment tr s
    (v, refused tr r ix sub true [] codeTransferState s)
  else
    let t : Transfer := { write := true, index := f.index, sub := f.subindex, next := 0, total := ofLe (d.take 4), digest := d.drop 4, data := []
                          role := r, since := s.nowNs }
    (.done 0 false [], updSession tr (fun x => { x with transfer := some t }) s)

def serveSegWrite (tr : Transport) (f : DxpFrame) (s : State) : Served × State :=
  let d := frameData f
  match (getSession s tr).transfer with
  | none => wrongSegment tr s
  | some t =>
    let next := t.next + d.length
    if !t.write || t.index ≠ f.index || t.sub ≠ f.subindex || t.next ≠ f.offset.toNat || t.total < next
        || (isLast f && next ≠ t.total) then wrongSegment tr s
    else if !isLast f then
      let t := { t with next := next, data := t.data ++ d, since := s.nowNs }
      (.done 0 false [], updSession tr (fun x => { x with transfer := some t }) s)
    else
      let s := endTransfer tr s
      let v := t.data ++ d
      if sha384 v ≠ t.digest then (.done codeSegmentDigest false [], refused tr t.role t.index.toNat t.sub.toNat true v codeSegmentDigest s)
      else writeServed tr s (writeValue (some tr) t.role t.index.toNat t.sub.toNat v s)

/-- A transfer without a segment for 10 s ends. -/
def tenSeconds : Nat := 10000000000

def transferLate (s : State) (x : Session) : Bool :=
  match x.transfer with
  | some t => decide (t.since + tenSeconds ≤ s.nowNs)
  | none => false

def serveFrame (tr : Transport) (f : DxpFrame) (s : State) : Served × State :=
  let ix := f.index.toNat
  let sub := f.subindex.toNat
  let s := if transferLate s (getSession s tr) then endTransfer tr s else s
  let op := f.op.toNat
  let c := if badFrame tr f then codeBadFrame else presentCheck s ix sub (op ≠ opDescribe)
  if c ≠ 0 then (.done c false [], s)
  else match (indexOf ix).bind fun b => entryOf b.1 sub with
  | none => (.done codeNoSubindex false [], s)
  | some e =>
    match op with
    | 1 => serveRead tr f e s
    | 2 => serveWrite tr f e s
    | 3 => serveSegRead tr f e s
    | 4 => serveInitiate tr f e s
    | 5 => serveSegWrite tr f s
    | 6 => let (c, d) := describe ix sub s
           (.done c false d, s)
    | _ => (.done 0 false [], endTransfer tr s)

/-- A request begins to execute, and is answered when its effect is complete. -/
def runFrame (tr : Transport) (f : DxpFrame) (s : State) : State :=
  let (v, s) := serveFrame tr f s
  match v with
  | .done c last d => respond tr f c last d s
  | .flash => updSession tr (fun x => { x with executing := some f }) s
  | .lace t => updSession tr (fun x => { x with executing := some f, lace := some t }) s

/-- A request that the session executes next, against the response that it keeps. -/
def nextFrame (tr : Transport) (f : DxpFrame) (s : State) : State :=
  let x := getSession s tr
  match x.lastReq with
  | none => runFrame tr f s
  | some g =>
    if g = f then
      let s := countAnswer 0 (putSession tr x s)
      answer (ofLe (bytesAt x.lastResp 24 4)) (x.lastResp.drop 32) (deliver tr x.lastResp s)
    else if g.requestId = f.requestId then respond tr f codeBadFrame false [] s
    else runFrame tr f s

/-- A frame arrives. In reset nothing is answered. -/
def receive (tr : Transport) (f : DxpFrame) (s : State) : State :=
  if s.pack.pins.inReset then s
  else if noFrame f then countDiscard s
  else
    let x := getSession s tr
    match x.executing with
    | none => nextFrame tr f s
    | some g =>
      if g = f then countDiscard s
      else if x.waiting.length < 4 then putSession tr { x with waiting := x.waiting ++ [f] } s
      else respond tr f codeBusy false [] s

/-- The waiting requests of a session run until one has to wait again. -/
def runWaiting (tr : Transport) : Nat → State → State
  | 0, s => s
  | n + 1, s =>
    let x := getSession s tr
    match x.executing, x.waiting with
    | none, f :: rest => runWaiting tr n (nextFrame tr f (putSession tr { x with waiting := rest } s))
    | _, _ => s

/-- The request that a session executes is answered. -/
def finishRequest (tr : Transport) (code : Nat) (s : State) : State :=
  let x := getSession s tr
  match x.executing with
  | none => s
  | some f =>
    let target := x.lace
    let s := putSession tr { x with executing := none, ahead := 0, lace := none } s
    let s := match target, x.transfer with
      | some _, some t =>
        let (v, s) := answerSegment tr t (wantedBytes tr f) s
        (match v with
        | .done c last d => respond tr f c last d s
        | _ => s)
      | _, _ => respond tr f code false [] s
    runWaiting tr 5 s

/-! ## The commands of frames -/

/-- The row of one operation: a frame whose `op` is another's is that other row's. Over I3C only the reduced form travels. -/
def frameRow (op : Nat) (tr : Transport) (f : DxpFrame) (s : State) : Host.Outcome State Fault Refusal :=
  .next (if tr = .i3c || (f.op.toNat ≠ op && 1 ≤ f.op.toNat && f.op.toNat ≤ 7) then s else receive tr f s)

def execDxpRead (tr : Transport) (f : DxpFrame) (s : State) : Host.Outcome State Fault Refusal := frameRow opRead tr f s
def execDxpWrite (tr : Transport) (f : DxpFrame) (s : State) : Host.Outcome State Fault Refusal := frameRow opWrite tr f s
def execDxpSegmentRead (tr : Transport) (f : DxpFrame) (s : State) : Host.Outcome State Fault Refusal := frameRow opSegRead tr f s
def execDxpWriteInitiate (tr : Transport) (f : DxpFrame) (s : State) : Host.Outcome State Fault Refusal := frameRow opInitiate tr f s
def execDxpSegmentWrite (tr : Transport) (f : DxpFrame) (s : State) : Host.Outcome State Fault Refusal := frameRow opSegWrite tr f s
def execDxpDescribe (tr : Transport) (f : DxpFrame) (s : State) : Host.Outcome State Fault Refusal := frameRow opDescribe tr f s
def execDxpCancel (tr : Transport) (f : DxpFrame) (s : State) : Host.Outcome State Fault Refusal := frameRow opCancel tr f s

def execDxpTransferTimeout (tr : Transport) (s : State) : Host.Outcome State Fault Refusal :=
  .next (if transferLate s (getSession s tr) then endTransfer tr s else s)

/-! ## The flash bus (R406, R464) and the end of maintenance -/

/-- One flash command before their answers has gone; those that waited for it alone are answered. -/
def flashServed (code : Nat) (s : State) : State :=
  let due := (s.pack.io.sessions.filter fun e => e.2.executing.isSome && e.2.ahead == 1).map (·.1)
  let s := updIo s fun i => { i with sessions := i.sessions.map fun e => (e.1, { e.2 with ahead := e.2.ahead - 1 }) }
  due.foldl (fun s tr => finishRequest tr code s) s

def execSpiGrant (s : State) : Host.Outcome State Fault Refusal := .next (flashServed 0 (flashGranted s))

def execSpiGrantTimeout (s : State) : Host.Outcome State Fault Refusal :=
  .next (if s.pack.pins.flash.isEmpty then flashFailed s else flashServed codeFlashFailed (flashFailed s))

/-- A lacework readback's end answers the request that asked for it. -/
def laceServed (r : Option Running) (s : State) : State :=
  match r with
  | none => s
  | some r =>
    if r.activity ≠ .lace || s.pack.maint.active.contains r then s
    else match s.pack.io.sessions.find? fun e => e.2.executing.isSome && e.2.lace == some r.target with
    | some e => finishRequest e.1 0 s
    | none => s

def execMaintActivityEnd (die : DieNo) (a : Activity) (ok : Bool) (positions : List TileAt) (s : State) : Host.Outcome State Fault Refusal :=
  .next (laceServed (runningOn s die.val a) (activityEnds die.val a ok positions s))

/-! ## The mailbox (R417) -/

/-- A doorbell write. A request shorter than a header is no frame. -/
def ringBell : Bell := fun f n s =>
  if s.pack.pins.inReset then s
  else
    let m := getMailbox s f
    if m.state = 1 then countDiscard s
    else
      let s := updMailbox f (fun m => { m with doorbell := BitVec.ofNat 13 n, state := 1 }) s
      let b := readBytes 0 m.request 0 (min n 4096)
      if b.length < 32 then countDiscard s else receive (.pcie (Fin.ofNat 17 f)) (parseFrame b) s

/-- The host's own write of a doorbell. -/
def execMbDoorbell (f : FuncNo) (length : BitVec 13) (s : State) : Host.Outcome State Fault Refusal :=
  .next (if s.pack.pins.perst then s
    else if f.val ≠ 0 && !functionOpen s f.val then countWall (.host f) s
    else ringBell f.val length.toNat s)

/-! ## I3C (R418) -/

/-- Reads that I3C lets through. -/
def i3cReads (ix : Nat) : Bool := readsUnsigned ix || (0x2000 ≤ ix && ix < 0x3000) || (0x9000 ≤ ix && ix < 0xA000)

/-- A segmented read over I3C: the transfer of the I3C session. -/
def i3cSegment (ix sub : Nat) (off : Nat) (s : State) : Nat × Bytes × State :=
  let fresh : Transfer := { write := false, index := BitVec.ofNat 16 ix, sub := BitVec.ofNat 8 sub, next := 0, total := 0, digest := [], data := []
                            role := .none, since := s.nowNs }
  let t := ((getSession s .i3c).transfer).getD fresh
  if t.index.toNat ≠ ix || t.sub.toNat ≠ sub || t.next ≠ off then (codeTransferState, [], endTransfer .i3c s)
  else
    let (v, s) := answerSegment .i3c t 32 s
    match v with
    | .done c _ d => (c, d, s)
    | _ => (0, [], s)

/-- The reduced form of DXP: abort code, and up to 32 bytes. -/
def i3cServe (op sub ix off : Nat) (s : State) : Nat × Bytes × State :=
  let s := if transferLate s (getSession s .i3c) then endTransfer .i3c s else s
  if op ≠ opRead && op ≠ opSegRead && op ≠ opDescribe then (codeBadFrame, [], s)
  else
    let c := presentCheck s ix sub (op ≠ opDescribe)
    if c ≠ 0 then (c, [], s)
    else match (indexOf ix).bind fun b => (entryOf b.1 sub).map fun e => (b, e) with
    | none => (codeNoSubindex, [], s)
    | some ((base, u), e) =>
      if op = opDescribe then (0, (describe ix sub s).2, s)
      else if !i3cReads ix then (codeRoleRefused, [], s)
      else if segmented .i3c e ≠ (op = opSegRead) then (codeTypeLength, [], s)
      else if op = opSegRead then i3cSegment ix sub off s
      else
        let (d, s) := entryValue .none base u sub s
        (0, d, s)

def execI3cRequest (op sub : Byte) (index offset : W16) (s : State) : Host.Outcome State Fault Refusal :=
  .next (if s.pack.pins.inReset then s
    else
      let (c, d, s) := i3cServe op.toNat sub.toNat index.toNat offset.toNat s
      answer c d (countAnswer c s))

def execDynamicAddressAssignment (addr : BitVec 7) (s : State) : Host.Outcome State Fault Refusal :=
  .next (if s.pack.pins.inReset then s else updIo s fun i => { i with i3cDyn := addr.setWidth 8 })

/-! ## The management port (R416) -/

/-- The link-local address of a MAC address by the modified EUI-64 rule; the first octet stands in bits [47:40]. -/
def linkLocal (mac : Nat) : Nat :=
  0xFE80 * 2 ^ 112 + Nat.xor (bits 47 40 mac) 2 * 2 ^ 56 + bits 39 24 mac * 2 ^ 40 + 0xFFFE * 2 ^ 24 + bits 23 0 mac

/-- The port has an address. -/
def mgmtHas (s : State) (v6 : Bool) (target : W128) : Bool :=
  let i := s.pack.io
  if v6 then target.toNat == linkLocal s.fuses.mac.toNat || (!allZero i.ipv6 && target.toNat == ofBe (fixedBytes 16 i.ipv6))
  else i.ipv4 ≠ 0 && target.toNat == i.ipv4.toNat

/-- A frame to an address of the port is answered; one to another is discarded. -/
def mgmtAnswer (v6 : Bool) (target : W128) (o : Outbound) (s : State) : State :=
  if s.pack.pins.inReset then s else if mgmtHas s v6 target then putOut o s else countDiscard s

def execMgmtEchoRequest (v6 : Bool) (target : W128) (payload : Bytes) (s : State) : Host.Outcome State Fault Refusal :=
  .next (mgmtAnswer v6 target (.echo payload) s)

def execMgmtAddressResolution (v6 : Bool) (target : W128) (s : State) : Host.Outcome State Fault Refusal :=
  .next (mgmtAnswer v6 target (.resolution target) s)

def execMgmtFrameDiscard (s : State) : Host.Outcome State Fault Refusal := .next (if s.pack.pins.inReset then s else countDiscard s)

def execMgmtLinkChange (up : Bool) (s : State) : Host.Outcome State Fault Refusal :=
  .next (updIo s fun i => { i with mgmtLink := BitVec.ofNat 8 (b2n up) })

/-! ## Requests of roles given as rows -/

def execHoldoffWrite (r : Role) (v : Bool) (s : State) : Host.Outcome State Fault Refusal :=
  .next (writeByName none r 0x7000 1 (leBytes 1 (b2n v)) s)

/-- READBACK_DATA_READ: one segment of a window. -/
def readWindow (r : Role) (w off n : Nat) (s : State) : State :=
  let c := accessCheck s r (0xA010 + w) 2 false
  let (c, d, s) := if c = 0 then readbackSegment w r off n s else (c, [], s)
  answer c d (if r = .maker && reachesAudit c then
    auditAppend { role := roleCode r, part := 0, index := 0xA010 + w, sub := 2, kind := kindRead, result := c } s else s)

def execReadbackDataRead (r : Role) (w : FuncNo) (off n : Nat) (o : SectorOutcome) (s : State) : Host.Outcome State Fault Refusal :=
  .next (readWindow r w.val off n (strike ((getReadback s w.val).base.toNat + off) o s))

def execReadbackDataWrite (r : Role) (w : FuncNo) (off : Nat) (d : Bytes) (s : State) : Host.Outcome State Fault Refusal :=
  .next (roleRequest none r (0xA010 + w.val) 2 d (readbackWrite w.val r off d) s)

/-! ## The host's window (R417) -/

/-- The partition that a host write reaches the data of; 0 for none. -/
def hostTarget (s : State) (o : Nat) : Nat := codePartitionAt s (classify s.fuses.variant o)

/-- A write at a package offset from outside the partition: a stamped input where it reaches one (R449). -/
def outsideWrite (by_ : Requester) (o : Nat) (d : Bytes) (s : State) : Nat × State :=
  let p := hostTarget s o
  let (a, s) := writeOffset ringBell by_ o d false s
  (a.status, if a.status = stDone && p ≠ 0 then stampData p o (d.length / 65536 + 1) d s else s)

/-- BAR2: a read is answered with its completion status, a refused write is discarded. -/
def hostAccess (f : FuncNo) (off size : Nat) (write : Option Bytes) (s : State) : State :=
  let o := (getMailbox s f.val).winBase.toNat * 2 ^ 28 + off
  if s.pack.pins.inReset || s.pack.pins.perst then s
  else match write with
  | none =>
    (match waitsForBank s (.host f) o size with
    | some (x, y, q) => queueRead (.host f) none x y q size s
    | none =>
      let (a, s) := readOffset (.host f) o size .clean s
      answer (statusTo (.host f) a.status) a.data s)
  | some d =>
    if replaying s f.val then answer codeReplaying [] s
    else (outsideWrite (.host f) o d s).2

def execHostWindowAccess (f : FuncNo) (o : BitVec 28) (size : Nat) (write : Option Bytes) (e : SectorOutcome) (s : State) :
    Host.Outcome State Fault Refusal :=
  .next (hostAccess f o.toNat size write (strike ((getMailbox s f.val).winBase.toNat * 2 ^ 28 + o.toNat) e s))

/-! ## Plain register writes (R18) -/

/-- The MSI-X table of function f in BAR0, Table 15-9: one entry of message address, data and vector control. Unmasking a vector whose
pending bit is set sends it (R427, log 39). -/
def msixBase (f : Nat) : Nat := 0x300020008000 + f * 0x10000

def msixBytes (m : Mailbox) : Bytes :=
  leBytes 8 m.msixAddr.toNat ++ leBytes 4 m.msixData.toNat ++ leBytes 4 (b2n m.masked)

def putMsix (f at_ : Nat) (d : Bytes) (s : State) : State :=
  let b := msixBytes (getMailbox s f)
  let b := b.take at_ ++ d ++ b.drop (at_ + d.length)
  let masked := bitAt 0 (ofLe (bytesAt b 12 4))
  let due := (getMailbox s f).irqPending && !masked
  let s := updMailbox f (fun m => { m with
    msixAddr := n64 (ofLe (bytesAt b 0 8)), msixData := BitVec.ofNat 32 (ofLe (bytesAt b 8 4)), masked := masked
    irqPending := m.irqPending && masked }) s
  if due then putOut (.msix f) s else s

/-- A write of the table by its own host. -/
def inMsix (f : FuncNo) (o n : Nat) : Bool := decide (msixBase f.val ≤ o ∧ o + n ≤ msixBase f.val + 16)

def registerAt (by_ : Requester) (o : Nat) (d : Bytes) (s : State) : State :=
  match by_ with
  | .dxp _ => s
  | .host f =>
    if s.pack.pins.inReset || s.pack.pins.perst then s
    else if inMsix f o d.length then
      if f.val ≠ 0 && !functionOpen s f.val then countWall (.host f) s else putMsix f.val (o - msixBase f.val) d s
    else if replaying s f.val && hostTarget s o ≠ 0 then answer codeReplaying [] s
    else (outsideWrite by_ o d s).2
  | _ =>
    let (a, s) := writeOffset ringBell by_ o d false s
    answer (statusTo by_ a.status) [] s

/-- REGISTER_WRITE: a register by its offset, or an entry by its name and the role of a verified request. -/
def registerWrite (by_ : Requester) (a : RegAddr) (v : Bytes) (s : State) : State :=
  match a with
  | .offset o size => registerAt by_ o.toNat (fixedBytes size v) s
  | .entry ix sub =>
    match by_ with
    | .dxp r => writeValue none r ix.toNat sub.toNat v s
    | _ => s

def execRegisterWrite (by_ : Requester) (a : RegAddr) (v : Bytes) (s : State) : Host.Outcome State Fault Refusal :=
  .next (registerWrite by_ a v s)

/-! ## Stamped inputs of a replay (R449) -/

/-- A recorded input is applied again: an entry by the name in its target, a knot set, or bytes at an offset. -/
def applyInput (p : Nat) (e : RecEntry) (s : State) : State :=
  if bits 63 48 e.target = 0x8000 then
    let ix := bits 23 8 e.target
    let sub := bits 7 0 e.target
    match indexOf ix with
    | none => s
    | some (base, u) =>
      match entryOf base sub with
      | none => s
      | some en => (entryWrite (.operator (Fin.ofNat 17 p)) ix base u sub en e.payload s).2
  else
    let knot := match homeOf (classify s.fuses.variant (bits 47 0 e.target)) with
      | .tileKnot .. => true
      | .shuttleKnot .. => true
      | _ => false
    if knot && e.payload.length = 16 && ofLe (e.payload.take 8) = e.target then
      (applyKnot p (n64 e.target) (n64 (ofLe (e.payload.drop 8))) s).2
    else (writeOffset noBell (.dxp (.operator (Fin.ofNat 17 p))) (bits 47 0 e.target) e.payload false s).2

/-- REPLAY_STAMPED_INPUT: the next input of the step, when exactly its S-beats have executed. -/
def replayInput (p : Nat) (s : State) : State :=
  if !replaying s p then s
  else match stampsLeft s p with
  | [] => s
  | (i, e) :: _ => if stepOffset s p = e.offset && inStep s p then armStamp p (consume p i (applyInput p e s)) else s

def execReplayStampedInput (p : PartNo) (s : State) : Host.Outcome State Fault Refusal := .next (replayInput p.val s)

end Sys2Proof.Machine
end

