-- ==== Sys2Proof/Machine/Shuttles.lean ====
section
/-! DEFINITION. Shuttle threads: how they issue, park and complete, their accesses, exceptions and extension instructions (08 R220 to
R249). -/

namespace Sys2Proof.Machine

/-! ## Issue (R221, R224) -/

/-- A user thread stands while the debug hold stops the partition's user code (R435, R438). -/
def stands (s : State) (n : Nat) (h : Shuttle) (t : Nat) : Bool :=
  !(getThread h t).machine && usersStopped s (ownerOfShuttle s n)

/-- The shuttle with thread `t` running, where it runs or may be selected now. -/
def mayIssue (s : State) (n t : Nat) : Option Shuttle :=
  let h := getShuttle s n
  let th := getThread h t
  if stands s n h t then none
  else if th.state = 1 then (if h.running = some (BitVec.ofNat 4 t) then some h else none)
  else if th.state = 0 then
    match h.running with
    | none => some (selectThread t h)
    | some u =>
      if stands s n h u.toNat then some (selectThread t (putThread h u.toNat { getThread h u.toNat with state := 0 })) else none
  else none

/-- A thread issues an instruction: its `pc` passes it (log 27), and `f` has its effect. -/
def issue (n t : Nat) (f : State → State) (s : State) : Host.Outcome State Fault Refusal :=
  .next (match mayIssue s n t with
    | none => s
    | some h => f (putShuttle s n (putThread h t { getThread h t with pc := (getThread h t).pc + 4 })))

/-- The same, for what happens at an instruction that does not complete. -/
def atIssue (n t : Nat) (f : State → State) (s : State) : Host.Outcome State Fault Refusal :=
  .next (match mayIssue s n t with
    | none => s
    | some h => f (putShuttle s n h))

def xOf (s : State) (n t : Nat) (r : BitVec 5) : W64 := xReg (getThread (getShuttle s n) t) r

def writeX (n t : Nat) (r : BitVec 5) (v : W64) (s : State) : State := updThread s n t (setX r v false)

/-- A status into rd (R227). -/
def writeStatus (n t : Nat) (r : BitVec 5) (st : Nat) (s : State) : State := writeX n t r (n64 st) s

/-! ## Exceptions (R226) -/

def csrMstatus : Nat := 0x300
def csrMtvec : Nat := 0x305
def csrMepc : Nat := 0x341
def csrMcause : Nat := 0x342
def csrMtval : Nat := 0x343

/-- `mstatus` on a trap: MPIE takes MIE, MIE clears, MPP takes the mode. -/
def trapStatus (machine : Bool) (v : W64) : W64 :=
  let mie := bitAt 3 v.toNat
  (v &&& ~~~0x1888) ||| n64 (b2n mie * 2 ^ 7 + (if machine then 3 else 0) * 2 ^ 11)

/-- A thread traps to the step service, in machine mode at the base of `mtvec`. -/
def trapThread (cause tval pc : W64) (th : Thread) : Thread :=
  let csr := sPut 0 csrMepc pc th.csr
  let csr := sPut 0 csrMcause cause csr
  let csr := sPut 0 csrMtval tval csr
  let csr := sPut 0 csrMstatus (trapStatus th.machine (sGet 0 csrMstatus csr)) csr
  { th with csr := csr, pc := sGet 0 csrMtvec csr &&& ~~~3, machine := true }

/-- An exception in machine mode halts the shuttle and is reported. -/
def haltShuttle (n : Nat) (cause : W64) (s : State) : State :=
  let s := updShuttle s n fun h =>
    { h with running := none, threads := sMap {} (fun th => { th with state := 5, waiting := .none }) h.threads }
  assertEvent (srcQuad (n / 8) 3) (n64 (n + cause.toNat * 2 ^ 8)) s

/-- An exception at the instruction at `pc`. -/
def raiseAt (n t : Nat) (cause tval pc : W64) (s : State) : State :=
  if (getThread (getShuttle s n) t).machine then haltShuttle n cause s
  else updThread s n t (trapThread cause tval pc)

/-- An exception of the instruction just issued, or of the access a thread is parked on. -/
def raiseThread (n t : Nat) (cause tval : W64) (s : State) : State :=
  raiseAt n t cause tval ((getThread (getShuttle s n) t).pc - 4) s

def causeFetch : W64 := 1
def causeIllegal : W64 := 2
def causeLoad : W64 := 5
def causeStore : W64 := 7

/-- An illegal instruction; its `mtval` is not given. -/
def raiseIllegal (n t : Nat) (s : State) : State :=
  let (k, s) := takeFree s
  raiseThread n t causeIllegal (Config.csrFree k csrMtval) s

/-- A context fault: the thread traps, is faulted, and the locks it holds break (R226, R235). -/
def faultThread (n t : Nat) (cause tval : W64) (s : State) : State :=
  let s := updThread s n t fun th => trapThread cause tval th.pc th
  let s := updShuttle s n (leaveRunning t 6 .none)
  let holds (k : Knot) : Bool := k.state == 1 && !k.ownerTile && k.owner.toNat == 16 * n + t
  breakAll (ownerOfShuttle s n) holds s

/-! ## Places of a thread's access (R222, R293) -/

inductive Place
  /-- Own local memory. -/
  | own (off : Nat)
  | package (o : Nat)
  | remote (chip o : Nat)
  | nowhere
  deriving DecidableEq, Repr

/-- The access of `size` bytes of shuttle n at a global address. -/
def placeOf (s : State) (n : Nat) (a : W64) (size : Nat) : Place :=
  let chip := bits 63 48 a.toNat
  let o := bits 47 0 a.toNat
  if chip = 0xFFFF || chip = s.links.chip.toNat then
    match classify s.fuses.variant o with
    | .shuttleMem m off => if m = n && off + size ≤ 0x40000 then .own off else .package o
    | _ => .package o
  else if chip < 4096 then .remote chip o
  else .nowhere

def isRemote : Place → Bool
  | .remote _ _ => true
  | _ => false

/-! ## Tags (R223) -/

def getTag (s : State) (n g : Nat) : Tag := sGet {} g (getShuttle s n).tags
def putTag (n g : Nat) (v : Tag) (s : State) : State := updShuttle s n fun h => { h with tags := sPut {} g v h.tags }

def freeTag (h : Shuttle) : Option Nat := (List.range 48).find? fun i => !(sGet {} i h.tags : Tag).valid

/-- A request takes the lowest free tag, and `f` sends it; with none free its thread waits for one and issues again. -/
def withTag (n t : Nat) (kind : ReqKind) (size : Nat) (a : W64) (f : Nat → State → State) (s : State) : State :=
  let h := getShuttle s n
  match freeTag h with
  | none =>
    let h := putThread h t { getThread h t with pc := (getThread h t).pc - 4 }
    putShuttle s n (leaveRunning t 3 .none { h with tagStalls := h.tagStalls + 1 })
  | some g =>
    let order := (h.tags.map fun e => e.2.order).foldl max 0 + 1
    let tag : Tag := { valid := true, thread := BitVec.ofNat 4 t, size := BitVec.ofNat 3 size, address := a, kind := some kind, order := order
                       last := (sGet {} g h.tags : Tag).last }
    f g (putTag n g tag s)

def park (n t g : Nat) (state : BitVec 3) (s : State) : State :=
  updShuttle s n (leaveRunning t state (.tag (BitVec.ofNat 6 g) none))

/-- Data that a request carries. -/
def tagPayload (g : Tag) : Bytes × Bool :=
  match g.kind with
  | some (.store d p) => (d, p)
  | some (.put d p) => (d, p)
  | _ => ([], false)

/-- A message of a thread to another package; where that cannot be reached the request completes at once (R304). -/
def sendRemote (n g : Nat) (o : Outgoing) (d : Bytes) (marks : List Bool) (s : State) : State :=
  let (s, ok) := sendMessage (ownerOfShuttle s n) o d marks (.thread (BitVec.ofNat 8 n) (BitVec.ofNat 6 g)) s
  if ok then s else answerTag n g (BitVec.ofNat 8 stUnreachable) [] false s

def threadMsg (n t g chip o : Nat) (cls : BitVec 4) (operand : Nat) : Outgoing :=
  { chip := BitVec.ofNat 16 chip, cls := cls, target := BitVec.ofNat 48 o, flow := BitVec.ofNat 16 (threadFlow (16 * n + t))
    thread := BitVec.ofNat 12 (16 * n + t), tag := BitVec.ofNat 6 g, operand := BitVec.ofNat 32 operand }

/-- Poison of each word of a payload. -/
def marksOf (n : Nat) (p : Bool) : List Bool := List.replicate ((n + 7) / 8) p

/-- An access leaves the shuttle (Table 8-1): by the light path, over the transfer network, or over the chip links as a read request,
whose operand is its size code (log 32), or a write request. -/
def sendAccess (n t g : Nat) (s : State) : State :=
  let tag := getTag s n g
  match placeOf s n tag.address (2 ^ tag.size.toNat) with
  | .nowhere => answerTag n g (BitVec.ofNat 8 stUnmapped) [] false s
  | .remote chip o =>
    if tagWrites tag then
      let (d, p) := tagPayload tag
      sendRemote n g (threadMsg n t g chip o 6 0) d (marksOf d.length p) s
    else sendRemote n g (threadMsg n t g chip o 4 tag.size.toNat) [] [] s
  | .package o => if (lightSide s n o).isSome then lightIssue n g (putTag n g { tag with light := true } s) else s
  | .own _ => s

/-! ## Loads and stores (R222) -/

/-- A loaded value, extended to 64 bits. -/
def extendLoad (size : Nat) (sgn : Bool) (d : Bytes) : W64 :=
  let v := ofLe (bytesAt d 0 size)
  if sgn && bitAt (8 * size - 1) v then n64 (v + 2 ^ 64 - 2 ^ (8 * size)) else n64 v

/-- A register takes what a load returned; a single-precision value is boxed. -/
def loadInto (rd : BitVec 5) (fp sgn : Bool) (size : Nat) (d : Bytes) (p : Bool) (th : Thread) : Thread :=
  if fp then setF rd (if size = 4 then n64 (ofLe (bytesAt d 0 4) + (2 ^ 32 - 1) * 2 ^ 32) else extendLoad size false d) p th
  else setX rd (extendLoad size sgn d) p th

def memAddress (s : State) (f : ShMem) : W64 := xOf s f.s.val f.t.val f.rs1 + f.imm.signExtend 64

def loadThread (f : ShMem) (s : State) : State :=
  let n := f.s.val
  let t := f.t.val
  let size := 2 ^ f.size.toNat
  if f.fp && size < 4 then raiseIllegal n t s
  else
    let a := memAddress s f
    match placeOf s n a size with
    | .own off => let h := getShuttle s n
                  updThread s n t (loadInto f.reg f.fp f.sgn size (localRead h off size) (localPoison h off size))
    | _ => withTag n t (.load f.reg f.fp f.sgn) f.size.toNat a (fun g s => park n t g 2 (sendAccess n t g s)) s

def storeThread (f : ShMem) (s : State) : State :=
  let n := f.s.val
  let t := f.t.val
  let size := 2 ^ f.size.toNat
  if f.fp && size < 4 then raiseIllegal n t s
  else
    let a := memAddress s f
    let th := getThread (getShuttle s n) t
    let (v, p) := if f.fp then ((sGet 0 f.reg.toNat th.f : W64), sGet false f.reg.toNat th.fPoison) else (xReg th f.reg, xPoisoned th f.reg)
    let d := leBytes size v.toNat
    match placeOf s n a size with
    | .own off => updShuttle s n (localWrite off d p)
    | _ => withTag n t (.store d p) f.size.toNat a (fun g s => park n t g 2 (sendAccess n t g s)) s

def execShuttleLoad (f : ShMem) (s : State) : Host.Outcome State Fault Refusal := issue f.s.val f.t.val (loadThread f) s
def execShuttleStore (f : ShMem) (s : State) : Host.Outcome State Fault Refusal := issue f.s.val f.t.val (storeThread f) s

/-! ## Atomics (R222) -/

/-- What an atomic operation writes. `w` bits. -/
def amoValue (op : AmoOp) (w : Nat) (old new : BitVec w) : BitVec w :=
  match op with
  | .lr => old
  | .sc => new
  | .swap => new
  | .add => old + new
  | .xor => old ^^^ new
  | .and => old &&& new
  | .or => old ||| new
  | .min => if old.slt new then old else new
  | .max => if old.slt new then new else old
  | .minu => if old < new then old else new
  | .maxu => if old < new then new else old

def amoBytes (op : AmoOp) (size old new : Nat) : Bytes :=
  leBytes size (amoValue op (8 * size) (BitVec.ofNat _ old) (BitVec.ofNat _ new)).toNat

def atomicThread (n t : Nat) (op : AmoOp) (rd rs1 rs2 : BitVec 5) (size : Nat) (s : State) : State :=
  let h := getShuttle s n
  let th := getThread h t
  let a := xReg th rs1
  let fail := raiseThread n t (if op = .lr then causeLoad else causeStore) a s
  match placeOf s n a size with
  | .own off =>
    if off % size ≠ 0 then fail
    else
      let old := localRead h off size
      let p := localPoison h off size
      let new := (xReg th rs2).toNat
      let q := xPoisoned th rs2
      let reserve (b : Option Nat) (s : State) : State := updThread s n t fun th => { th with reserved := b }
      match op with
      | .lr => updThread (reserve (some (off / 8)) s) n t (setX rd (extendLoad size true old) p)
      | .sc =>
        if th.reserved = some (off / 8) then
          writeX n t rd 0 (reserve none (updShuttle s n (localWrite off (leBytes size new) q)))
        else writeX n t rd 1 (reserve none s)
      | _ =>
        let s := updShuttle s n (localWrite off (amoBytes op size (ofLe old) new) (p || q))
        updThread s n t (setX rd (extendLoad size true old) p)
  | _ => fail

def execShuttleAtomic (n : ShuttleNo) (t : ThreadNo) (op : AmoOp) (rd rs1 rs2 : BitVec 5) (dword : Bool) (s : State) :
    Host.Outcome State Fault Refusal :=
  issue n.val t.val (atomicThread n.val t.val op rd rs1 rs2 (if dword then 8 else 4)) s

/-! ## Fetch, fence and the quantum (R222, R224, R225) -/

def lineOf (pc : W64) : Nat := pc.toNat / 64

def fetchMiss (n t : Nat) (s : State) : State :=
  let h := getShuttle s n
  let pc := (getThread h t).pc
  if h.icache.contains (lineOf pc) then s
  else
    -- the fetch issues again from the same pc
    let s := updThread s n t fun th => { th with pc := th.pc + 4 }
    let s := withTag n t .fetch 6 (n64 (lineOf pc * 64)) (fun g s => park n t g 2 (sendAccess n t g s)) s
    updThread s n t fun th => { th with pc := pc }

def execInstructionFetchMiss (n : ShuttleNo) (t : ThreadNo) (s : State) : Host.Outcome State Fault Refusal :=
  atIssue n.val t.val (fetchMiss n.val t.val) s

def fenceThread (n t : Nat) (s : State) : State :=
  if (tagsOf (getShuttle s n) t).isEmpty then s else updShuttle s n (leaveRunning t 2 .fence)

def execFence (n : ShuttleNo) (t : ThreadNo) (s : State) : Host.Outcome State Fault Refusal := issue n.val t.val (fenceThread n.val t.val) s

def quantumEnds (h : Shuttle) : Shuttle :=
  match h.running with
  | some t => if (nextThread t.toNat h).isSome then leaveRunning t.toNat 0 .none h else h
  | none => h

def execThreadQuantumExpiry (n : ShuttleNo) (s : State) : Host.Outcome State Fault Refusal := .next (updShuttle s n.val quantumEnds)

def execShuttleException (n : ShuttleNo) (t : ThreadNo) (cause tval : W64) (contextFault : Bool) (s : State) :
    Host.Outcome State Fault Refusal :=
  atIssue n.val t.val (fun s =>
    let th := getThread (getShuttle s n.val) t.val
    if th.machine then s
    else if contextFault then faultThread n.val t.val cause tval s
    else raiseAt n.val t.val cause tval th.pc s) s

def execShuttleMachineException (n : ShuttleNo) (t : ThreadNo) (cause : W64) (s : State) : Host.Outcome State Fault Refusal :=
  atIssue n.val t.val (fun s => if (getThread (getShuttle s n.val) t.val).machine then haltShuttle n.val cause s else s) s

/-! ## Completions (R223, R225, R448) -/

/-- Threads that waited for the tag, for a fence or for a free tag. -/
def wakeTag (n g : Nat) (st : Byte) (s : State) : State :=
  updShuttle s n fun h =>
    (List.range 16).foldl (fun h t =>
      let th := getThread h t
      match th.waiting with
      | .tag u rd =>
        if u.toNat ≠ g then h
        else readyThread t (match rd with
          | some r => putThread h t (setX r (st.setWidth 64) false th)
          | none => h)
      | .fence => if (tagsOf h t).isEmpty then readyThread t h else h
      | _ => if th.state = 3 then readyThread t h else h) h

/-- Resident lines: 512 of 64 bytes; the oldest makes room (log 28). -/
def addLine (l : Nat) (c : List Nat) : List Nat := (if 512 ≤ c.length then c.drop 1 else c) ++ [l]

/-- What a completed request does besides freeing its tag. A wall stop of a load, a store or a fetch is an access fault (Table
14-4). -/
def deliverRequest (n g : Nat) (st : Nat) (d : Bytes) (p : Bool) (s : State) : State :=
  let tag := getTag s n g
  let t := tag.thread.toNat
  let good := st = stDone || st = stPoisoned
  match tag.kind with
  | some (.load rd fp sgn) =>
    if st = stWall then raiseThread n t causeLoad tag.address s
    else if good then updThread s n t (loadInto rd fp sgn (2 ^ tag.size.toNat) d p) else s
  | some (.store _ _) => if st = stWall then raiseThread n t causeStore tag.address s else s
  | some (.get loc) => if good then updShuttle s n (localWrite loc.toNat (fixedBytes (2 ^ tag.size.toNat) d) p) else s
  | some (.put _ _) => s
  | some .fetch =>
    if st = stWall then raiseAt n t causeFetch tag.address (getThread (getShuttle s n) t).pc s
    else if good then updShuttle s n fun h => { h with icache := addLine (lineOf tag.address) h.icache } else s
  | some (.knot rd op _ _) =>
    if op = 0 then
      if good then writeX n t rd (n64 (ofLe (bytesAt d 0 8))) s
      else if st = stWall then writeStatus n t rd st s
      else let (k, s) := takeFree s
           writeX n t rd (Config.knotRead k) s
    else writeStatus n t rd st s
  | some (.channel rd) => writeStatus n t rd st s
  | some (.desc rd) => writeStatus n t rd st s
  | none => s

/-- Target word of a kind 7 entry (Table 16-7). -/
def completionTarget (n t g : Nat) : Nat := 16 * n + t + g * 2 ^ 12

/-- The tag frees, and whoever waited for it goes on. -/
def freeRequest (n g st : Nat) (s : State) : State :=
  wakeTag n g (BitVec.ofNat 8 st) (updShuttle s n fun h =>
    { h with tags := sPut {} g { last := BitVec.ofNat 8 st } h.tags, requests := h.requests + 1 })

def finishTag (n g st : Nat) (d : Bytes) (p : Bool) (s : State) : State := freeRequest n g st (deliverRequest n g st d p s)

/-- A completion from another package is recorded: its status, poison and data (log 30). -/
def recordCompletion (n g st : Nat) (d : Bytes) (p : Bool) (s : State) : State :=
  let tag := getTag s n g
  let t := tag.thread.toNat
  recordNow (ownerOfShuttle s n) 7 false (threadFlow (16 * n + t)) (completionTarget n t g) (bits 63 48 tag.address.toNat)
    (leBytes 8 (st + b2n p * 2 ^ 8) ++ d) s

/-- Every request of the thread to its block that was issued before has completed (R225). -/
def eldest (h : Shuttle) (g : Nat) : Bool :=
  let tag : Tag := sGet {} g h.tags
  (List.range 48).all fun u =>
    let e : Tag := sGet {} u h.tags
    !(e.valid && e.thread == tag.thread && e.address.toNat / 64 == tag.address.toNat / 64 && e.order < tag.order)

/-- The next recorded completion of a thread (R448). -/
def recordedCompletion (s : State) (p thread : Nat) : Option (Nat × RecEntry) :=
  (unconsumed s p).find? fun e => e.2.kind == 7 && bits 11 0 e.2.target == thread

/-- A store by a shuttle to a full trigger queue waits (R191). -/
def triggerFull (s : State) (o : Nat) : Bool :=
  match homeAt s o with
  | .trigger k => 8 ≤ triggersQueued (getSide s k)
  | _ => false

/-- A knot is read, or set by `sh.kinit` (R227), with its status and data. -/
def knotAccess (n t : Nat) (op : Nat) (o operand : Nat) (s : State) : Nat × Bytes × State :=
  let r := classify s.fuses.variant o
  if isUnmapped r then (stUnmapped, [], s)
  else if !reaches s (ownerOfShuttle s n) r then (stWall, [], countWall (.shuttle (Fin.ofNat 256 n) (Fin.ofNat 16 t)) s)
  else match homeKnot s (homeOf r) with
  | none => (stBadTarget, [], s)
  | some k =>
    if op = 0 then (stDone, leBytes 8 (knotWord k).toNat, s)
    else
      let new : Knot := { count := BitVec.ofNat 16 operand, gen := BitVec.ofNat 16 (operand / 2 ^ 16) }
      (stDone, [], wakeHome (homeOf r) (putHomeKnot (homeOf r) new s))

/-- A request of this package that takes the transfer network is carried out now. -/
def carryOut (n g : Nat) (out : SectorOutcome) (s : State) : State :=
  let tag := getTag s n g
  let t := tag.thread.toNat
  let o := bits 47 0 tag.address.toNat
  let size := 2 ^ tag.size.toNat
  let access (w : Option (Bytes × Bool)) : State :=
    let (a, s) := shuttleAccess ringBell n t o size w out s
    finishTag n g a.status a.data a.poison s
  if tag.light then s
  else match tag.kind with
  | some (.load ..) => access none
  | some (.get _) => access none
  | some .fetch => access none
  | some (.store d p) => if triggerFull s o then s else access (some (d, p))
  | some (.put d p) => if triggerFull s o then s else access (some (d, p))
  | some (.knot _ op _ _) =>
    if op = 0 || op = 7 then
      let (st, d, s) := knotAccess n t op.toNat o (ofLe tag.data) s
      finishTag n g st d false s
    else s
  | _ => s

/-- REQUEST_COMPLETION. -/
def completeRequest (n g : Nat) (out : SectorOutcome) (s : State) : State :=
  let h := getShuttle s n
  let tag : Tag := sGet {} g h.tags
  let p := ownerOfShuttle s n
  let far := isRemote (placeOf s n tag.address 1)
  if !tag.valid || !eldest h g then s
  else if far && replaying s p then
    match recordedCompletion s p (16 * n + tag.thread.toNat) with
    | none => s
    | some (i, e) =>
      let v := ofLe (bytesAt e.payload 0 8)
      let acked : Bool := match tag.kind with
        | some (.channel _) => v % 256 == 0
        | _ => false
      let s := if acked then updShuttle s n fun h => { h with senders := countAcked tag.address h.senders } else s
      consume p i (finishTag n g (v % 256) (e.payload.drop 8) (bitAt 8 v) s)
  else match tag.reply with
  | some st =>
    let s := if far then recordCompletion n g st.toNat tag.data tag.poison s else s
    finishTag n g st.toNat tag.data tag.poison s
  | none => if far then s else carryOut n g out s

def execRequestCompletion (n : ShuttleNo) (g : TagNo) (out : SectorOutcome) (s : State) : Host.Outcome State Fault Refusal :=
  .next (completeRequest n.val g.val out s)

/-! ## Transfers and tags (R225, R227) -/

def execShYield (f : ShOp) (s : State) : Host.Outcome State Fault Refusal :=
  issue f.s.val f.t.val (fun s => updShuttle s f.s.val (leaveRunning f.t.val 0 .none)) s

/-- A stretch of local memory that an operand names. -/
def localFits (off n : Nat) : Bool := off + n ≤ 0x40000

/-- `sh.get` and `sh.put`: the tag's number, and the request on its way. Size code 7 and a stretch beyond local memory complete
`misaligned` (log 33). -/
def transferThread (f : ShOp) (put : Bool) (s : State) : State :=
  let n := f.s.val
  let t := f.t.val
  let a := xOf s n t f.rs1
  let v := (xOf s n t f.rs2).toNat
  let loc := bits 17 0 v
  let code := bits 20 18 v
  let size := 2 ^ code
  let h := getShuttle s n
  let kind : ReqKind := if put then .put (localRead h loc size) (localPoison h loc size) else .get (BitVec.ofNat 18 loc)
  withTag n t kind code a (fun g s =>
    let s := writeX n t f.rd (n64 g) s
    if code = 7 || !localFits loc size then answerTag n g (BitVec.ofNat 8 stMisaligned) [] false s else sendAccess n t g s) s

def execShGet (f : ShOp) (s : State) : Host.Outcome State Fault Refusal := issue f.s.val f.t.val (transferThread f false) s
def execShPut (f : ShOp) (s : State) : Host.Outcome State Fault Refusal := issue f.s.val f.t.val (transferThread f true) s

/-- A number of 48 or more names no tag (log 33). -/
def waitTagThread (f : ShOp) (s : State) : State :=
  let n := f.s.val
  let t := f.t.val
  let g := (xOf s n t f.rs1).toNat
  if 48 ≤ g then writeStatus n t f.rd stBadTarget s
  else if (getTag s n g).valid then updShuttle s n (leaveRunning t 2 (.tag (BitVec.ofNat 6 g) (some f.rd)))
  else writeStatus n t f.rd (getTag s n g).last.toNat s

def execShWtag (f : ShOp) (s : State) : Host.Outcome State Fault Refusal := issue f.s.val f.t.val (waitTagThread f) s

def pollTagThread (f : ShOp) (s : State) : State :=
  let n := f.s.val
  let t := f.t.val
  let g := (xOf s n t f.rs1).toNat
  writeStatus n t f.rd
    (if 48 ≤ g then stBadTarget else if (getTag s n g).valid then stPending else (getTag s n g).last.toNat) s

def execShPtag (f : ShOp) (s : State) : Host.Outcome State Fault Refusal := issue f.s.val f.t.val (pollTagThread f) s

/-- `sh.desc`: the descriptor enters the side's list of what has reached it (R191). -/
def descThread (f : ShOp) (s : State) : State :=
  let n := f.s.val
  let t := f.t.val
  let off := bits 17 0 (xOf s n t f.rs1).toNat
  let i := (xOf s n t f.rs2).toNat
  if 8 ≤ i then writeStatus n t f.rd stBadTarget s
  else if !localFits off 32 then writeStatus n t f.rd stMisaligned s
  else
    let h := getShuttle s n
    let w (j : Nat) : W64 := n64 (ofLe (localRead h (off + 8 * j) 8))
    let a := n64 (s.links.chip.toNat * 2 ^ 48 + 0x200000000000 + n * 0x40000 + off)
    withTag n t (.desc f.rd) 5 a (fun g s =>
      let s := updSide s (sideOfQuad (n / 8) i) fun sd =>
        { sd with inbox := sd.inbox ++ [.desc (w 0) (w 1) (w 2) (w 3) (BitVec.ofNat 8 n) (BitVec.ofNat 6 g)] }
      park n t g 2 s) s

def execShDesc (f : ShOp) (s : State) : Host.Outcome State Fault Refusal := issue f.s.val f.t.val (descThread f) s

/-! ## Knots (R230 to R236) -/

def userOf (n t : Nat) : KnotUser := ⟨false, BitVec.ofNat 12 (16 * n + t), 0, 0⟩

/-- An operation on a knot of the own shuttle takes effect at once; a wait or a lock that is not met parks its thread. -/
def ownKnot (n t k : Nat) (rd : BitVec 5) (op v : Nat) (s : State) : State :=
  let u := userOf n t
  let (h, r) := shuttleKnot op v u true k (getShuttle s n)
  let s := putShuttle s n h
  if r.met then
    let s := writeStatus n t rd r.status.toNat s
    wakeShuttle n (if r.status = 0x11 then s else recordOwn n k u.thread s)
  else updShuttle s n (leaveRunning t 4 (.ownKnot rd (BitVec.ofNat 8 k) (BitVec.ofNat 3 op) (BitVec.ofNat 16 v) u.thread))

/-- A signal that the wall stops counts in `sync.wall_signals`, any other operation in the partition's stops (R236, R374). -/
def wallKnot (n t op : Nat) (s : State) : State :=
  let p := ownerOfShuttle s n
  if op = 1 then
    let s := updPart s p fun q => { q with sync := { q.sync with wallSignals := q.sync.wallSignals + 1 } }
    assertEvent (srcPart p 5) ((getPart s p).sync.wallSignals.setWidth 64) s
  else countWall (.shuttle (Fin.ofNat 256 n) (Fin.ofNat 16 t)) s

/-- The knot instructions with op 1 to 6. -/
def knotThread (f : ShOp) (op : Nat) (s : State) : State :=
  let n := f.s.val
  let t := f.t.val
  let a := xOf s n t f.rs1
  let v := (xOf s n t f.rs2).toNat % 65536
  let first := op = 2 || op = 4 || op = 6
  let kind : ReqKind := .knot f.rd (BitVec.ofNat 3 op) (BitVec.ofNat 16 v) first
  let send (o : Nat) : State := withTag n t kind 0 a (fun g s =>
    park n t g 4 { s with net := s.net ++ [.knotOp (.thread (BitVec.ofNat 8 n) (BitVec.ofNat 6 g)) (userOf n t) (n64 o)
      (BitVec.ofNat 3 op) (BitVec.ofNat 16 v) first] }) s
  match placeOf s n a 1 with
  | .nowhere => writeStatus n t f.rd stUnmapped s
  | .remote chip o =>
    withTag n t kind 0 a (fun g s => park n t g 4 (sendRemote n g (threadMsg n t g chip o 2 (wideKnotWord op v first)) [] [] s)) s
  | .own _ => writeStatus n t f.rd stBadTarget s
  | .package o =>
    let r := classify s.fuses.variant o
    if isUnmapped r then writeStatus n t f.rd stUnmapped s
    else if !reaches s (ownerOfShuttle s n) r then writeStatus n t f.rd stWall (wallKnot n t op s)
    else match homeOf r with
    | .shuttleKnot m k => if m = n && !replaying s (ownerOfShuttle s n) then ownKnot n t k f.rd op v s else send o
    | .tileKnot _ _ _ => send o
    | _ => writeStatus n t f.rd stBadTarget s

def execShKsig (f : ShOp) (s : State) : Host.Outcome State Fault Refusal := issue f.s.val f.t.val (knotThread f 1) s
def execShKwait (f : ShOp) (s : State) : Host.Outcome State Fault Refusal := issue f.s.val f.t.val (knotThread f 2) s
def execShKwaitg (f : ShOp) (s : State) : Host.Outcome State Fault Refusal := issue f.s.val f.t.val (knotThread f 6) s
def execShKtake (f : ShOp) (s : State) : Host.Outcome State Fault Refusal := issue f.s.val f.t.val (knotThread f 3) s
def execShKlock (f : ShOp) (s : State) : Host.Outcome State Fault Refusal := issue f.s.val f.t.val (knotThread f 4) s
def execShKunlock (f : ShOp) (s : State) : Host.Outcome State Fault Refusal := issue f.s.val f.t.val (knotThread f 5) s

/-- `sh.kread` and `sh.kinit`: at once on the own shuttle's knots, elsewhere by a request; another package's knot is read by a read
request, and never set (log 33). -/
def knotAccessThread (f : ShOp) (op : Nat) (s : State) : State :=
  let n := f.s.val
  let t := f.t.val
  let a := xOf s n t f.rs1
  let v := (xOf s n t f.rs2).toNat % 2 ^ 32
  let kind : ReqKind := .knot f.rd (BitVec.ofNat 3 op) 0 false
  let answerNow (st : Nat) (d : Bytes) (s : State) : State :=
    if op = 7 then writeStatus n t f.rd st s
    else if st = stDone then writeX n t f.rd (n64 (ofLe (bytesAt d 0 8))) s
    else if st = stWall then writeStatus n t f.rd st s
    else let (k, s) := takeFree s
         writeX n t f.rd (Config.knotRead k) s
  match placeOf s n a 1 with
  | .nowhere => answerNow stUnmapped [] s
  | .remote chip o =>
    if op = 7 then answerNow stBadTarget [] s
    else withTag n t kind 3 a (fun g s => park n t g 4 (sendRemote n g (threadMsg n t g chip o 4 3) [] [] s)) s
  | .own _ => answerNow stBadTarget [] s
  | .package o =>
    match homeAt s o with
    | .shuttleKnot m _ =>
      if m = n then
        let (st, d, s) := knotAccess n t op o v s
        answerNow st d s
      else request n t kind a v s
    | .tileKnot _ _ _ => request n t kind a v s
    | _ => let (st, d, s) := knotAccess n t op o v s
           answerNow st d s
where
  request (n t : Nat) (kind : ReqKind) (a : W64) (v : Nat) (s : State) : State :=
    withTag n t kind 3 a (fun g s => park n t g 4 (putTag n g { getTag s n g with data := leBytes 4 v } s)) s

def execShKread (f : ShOp) (s : State) : Host.Outcome State Fault Refusal := issue f.s.val f.t.val (knotAccessThread f 0) s

/-- Service only (R227). -/
def execShKinit (f : ShOp) (s : State) : Host.Outcome State Fault Refusal :=
  issue f.s.val f.t.val (fun s =>
    if (getThread (getShuttle s f.s.val) f.t.val).machine then knotAccessThread f 7 s else raiseIllegal f.s.val f.t.val s) s

/-! ## Channels (R241 to R246) -/

/-- The handle of an entry of the own shuttle's control window. -/
def ownHandle (s : State) (n off : Nat) : W64 := n64 (s.links.chip.toNat * 2 ^ 48 + ctlWindow n + off)

/-- Result of an open that is refused (Table 8-2). -/
def openRefused (st : Nat) : W64 := n64 (2 ^ 63 + st)

/-- R241: the first refusal, else the entry. -/
def openChannel (h : Shuttle) (v w : Nat) : Except Nat (Nat × Channel) :=
  let base := bits 17 0 v
  let size := bits 35 18 v
  let maxMsg := bits 16 0 w
  match (List.range 64).find? fun c => !(getChannel h c).opened with
  | none => .error stNoChannel
  | some c =>
    if size % 256 ≠ 0 || size < 4096 || 196608 < size || misplaced h base size then .error stBadRing
    else if maxMsg = 0 || 65536 < maxMsg then .error stTooLong
    else if size < 2 * (maxMsg + 16) then .error stRingSmall
    else .ok (c, { getChannel h c with
      base := BitVec.ofNat 18 base, size := BitVec.ofNat 18 size, maxMsg := BitVec.ofNat 17 maxMsg, opened := true
      notify := bitAt 25 w, knot := BitVec.ofNat 8 (bits 24 17 w), wrPos := 0, rdPos := 0, produced := 0, consumed := 0 })

def chopenThread (f : ShOp) (s : State) : State :=
  let n := f.s.val
  let t := f.t.val
  match openChannel (getShuttle s n) (xOf s n t f.rs1).toNat (xOf s n t f.rs2).toNat with
  | .error st => writeX n t f.rd (openRefused st) s
  | .ok (c, e) => writeX n t f.rd (ownHandle s n (0x1400 + 32 * c)) (updShuttle s n (putChannel c e))

def execShChopen (f : ShOp) (s : State) : Host.Outcome State Fault Refusal := issue f.s.val f.t.val (chopenThread f) s

/-- Words of local memory with their poison. -/
def localMessage (h : Shuttle) (off len : Nat) : List (Pz 64) :=
  (List.range ((len + 7) / 8)).map fun i =>
    let n := min 8 (len - 8 * i)
    ⟨n64 (ofLe (localRead h (off + 8 * i) n)), localPoison h (off + 8 * i) n⟩

/-- A message or contribution of a thread (R244): the wall first, then its sender table, then the target. -/
def sendThread (f : ShOp) (kind : Nat) (off len : Nat) (s : State) : State :=
  let n := f.s.val
  let t := f.t.val
  let a := xOf s n t f.rs1
  let h := getShuttle s n
  let walled := match placeOf s n a 1 with
    | .package o => !reaches s (ownerOfShuttle s n) (classify s.fuses.variant o)
    | _ => false
  let target := match placeOf s n a 1 with
    | .own _ => stBadTarget
    | .nowhere => stUnmapped
    | .package o => if isUnmapped (classify s.fuses.variant o) then stUnmapped else 0
    | .remote _ _ => 0
  if walled then writeStatus n t f.rd stWall (countWall (.shuttle (Fin.ofNat 256 n) (Fin.ofNat 16 t)) s)
  else if target ≠ 0 then writeStatus n t f.rd target s
  else match senderEntry a h.senders with
  | none => writeStatus n t f.rd stTableFull s
  | some e =>
    if !localFits off len then writeStatus n t f.rd stMisaligned s
    else
      let ws := localMessage h off len
      let claim (s : State) : State := updShuttle s n fun h =>
        { h with senders := sPut {} e ⟨a, (sGet {} e h.senders : Sender).acked⟩ h.senders }
      withTag n t (.channel f.rd) 0 a (fun g s =>
        let s := claim s
        park n t g 2 (match placeOf s n a 1 with
          | .remote chip o =>
            let m := threadMsg n t g chip o (BitVec.ofNat 4 kind) 0
            sendRemote n g { m with flow := BitVec.ofNat 16 (64 * n + e) } (messageBytes ws len) (ws.map (·.poison)) s
          | .package o => { s with net := s.net ++ [.data (.thread (BitVec.ofNat 8 n) (BitVec.ofNat 6 g)) (n64 o) ws len kind] }
          | _ => s)) s

def chsendThread (f : ShOp) (s : State) : State :=
  let v := (xOf s f.s.val f.t.val f.rs2).toNat
  sendThread f 0 (bits 17 0 v) (bits 34 18 v) s

def execShChsend (f : ShOp) (s : State) : Host.Outcome State Fault Refusal := issue f.s.val f.t.val (chsendThread f) s

/-- R245: the entry with messages acknowledged, none when the acknowledgement is bad. -/
def ackChannel (e : Channel) (rd n : Nat) : Option Channel :=
  let size := e.size.toNat
  let far := (rd + size - e.rdPos.toNat) % max size 1
  if rd % 16 ≠ 0 || size ≤ rd || usedBytes e < far || (e.produced - e.consumed).toNat < n then none
  else some { e with rdPos := BitVec.ofNat 18 rd, consumed := e.consumed + BitVec.ofNat 32 n }

def chackThread (f : ShOp) (s : State) : State :=
  let n := f.s.val
  let t := f.t.val
  let c := (xOf s n t f.rs1).toNat
  let v := (xOf s n t f.rs2).toNat
  let e := getChannel (getShuttle s n) c
  if 64 ≤ c then writeStatus n t f.rd stBadTarget s
  else if !e.opened then writeStatus n t f.rd stClosed s
  else match ackChannel e (bits 17 0 v) (bits 63 32 v) with
  | none => writeStatus n t f.rd stBadAck s
  | some e => writeStatus n t f.rd stDone (updShuttle s n (putChannel c e))

def execShChack (f : ShOp) (s : State) : Host.Outcome State Fault Refusal := issue f.s.val f.t.val (chackThread f) s

def chpollThread (f : ShOp) (s : State) : State :=
  let n := f.s.val
  let t := f.t.val
  let c := (xOf s n t f.rs1).toNat
  let e := getChannel (getShuttle s n) c
  writeX n t f.rd (if 64 ≤ c || !e.opened then 0 else n64 (e.produced.toNat + e.wrPos.toNat * 2 ^ 32)) s

def execShChpoll (f : ShOp) (s : State) : Host.Outcome State Fault Refusal := issue f.s.val f.t.val (chpollThread f) s

def chcloseThread (f : ShOp) (s : State) : State :=
  let n := f.s.val
  let t := f.t.val
  let c := (xOf s n t f.rs1).toNat
  let e := getChannel (getShuttle s n) c
  if 64 ≤ c then writeStatus n t f.rd stBadTarget s
  else if !e.opened then writeStatus n t f.rd stClosed s
  else writeStatus n t f.rd stDone (updShuttle s n (putChannel c { e with opened := false }))

def execShChclose (f : ShOp) (s : State) : Host.Outcome State Fault Refusal := issue f.s.val f.t.val (chcloseThread f) s

/-! ## Combining queues (R247 to R249) -/

/-- R247: the first refusal, else the entry. -/
def openQueue (h : Shuttle) (v w : Nat) : Except Nat (Nat × Queue) :=
  let c := bits 5 0 v
  let width := bits 17 6 v + 1
  let contributors := bits 15 0 w
  let slots := bits 23 16 w
  let base := bits 41 24 w
  let bound := (List.range 16).any fun q => (getQueue h q).opened && (getQueue h q).channel.toNat == c
  if !(getChannel h c).opened then .error stClosed
  else match (List.range 16).find? fun q => !(getQueue h q).opened with
  | none => .error stNoChannel
  | some q =>
    if bound then .error stNoChannel
    else if contributors = 0 || slots = 0 then .error stBadQueue
    else if misplaced h base (slots * (16 + 4 * width)) then .error stBadRing
    else if (getChannel h c).maxMsg.toNat < 8 + 4 * width then .error stRingSmall
    else .ok (q, { getQueue h q with
      channel := BitVec.ofNat 6 c, opened := true, widthM1 := BitVec.ofNat 12 (width - 1), contributors := BitVec.ofNat 16 contributors
      slots := BitVec.ofNat 8 slots, base := BitVec.ofNat 18 base })

/-- Every slot of a queue stands free. -/
def freeSlots (q : Queue) (h : Shuttle) : Shuttle :=
  (List.range q.slots.toNat).foldl (fun h i => writeCqSlot q i ⟨0, 0, false, false⟩ h) h

def cqopenThread (f : ShOp) (s : State) : State :=
  let n := f.s.val
  let t := f.t.val
  match openQueue (getShuttle s n) (xOf s n t f.rs1).toNat (xOf s n t f.rs2).toNat with
  | .error st => writeX n t f.rd (openRefused st) s
  | .ok (q, e) => writeX n t f.rd (ownHandle s n (0x1C00 + 16 * q)) (updShuttle s n fun h => freeSlots e (putQueue q e h))

def execShCqopen (f : ShOp) (s : State) : Host.Outcome State Fault Refusal := issue f.s.val f.t.val (cqopenThread f) s

/-- Bytes of a contribution: those of the queue that the handle names here; another package's queue is not known (log 34). -/
def contributionBytes (s : State) (n : Nat) (a : W64) : Nat × State :=
  match placeOf s n a 1 with
  | .package o =>
    (match homeAt s o with
    | .queue m q => (8 + 4 * queueWidth (getQueue (getShuttle s m) q), s)
    | _ => (8, s))
  | .remote _ _ => let (k, s) := takeFree s
                   (8 + 4 * (Config.contribution k % 4096 + 1), s)
  | _ => (8, s)

def cqaddThread (f : ShOp) (s : State) : State :=
  let n := f.s.val
  let t := f.t.val
  let off := bits 17 0 (xOf s n t f.rs2).toNat
  let (len, s) := contributionBytes s n (xOf s n t f.rs1)
  sendThread f 1 off len s

def execShCqadd (f : ShOp) (s : State) : Host.Outcome State Fault Refusal := issue f.s.val f.t.val (cqaddThread f) s

def cqcloseThread (f : ShOp) (s : State) : State :=
  let n := f.s.val
  let t := f.t.val
  let q := (xOf s n t f.rs1).toNat
  let e := getQueue (getShuttle s n) q
  if 16 ≤ q then writeStatus n t f.rd stBadTarget s
  else if !e.opened then writeStatus n t f.rd stClosed s
  else writeStatus n t f.rd stDone (updShuttle s n (putQueue q { e with opened := false }))

def execShCqclose (f : ShOp) (s : State) : Host.Outcome State Fault Refusal := issue f.s.val f.t.val (cqcloseThread f) s

end Sys2Proof.Machine
end

