-- ==== Sys2Proof/Machine/Network.lean ====
section
/-! DEFINITION. Messages under way in the package: knot operations and replies, the forwarders of sides, channel messages and
contributions (08 R233 to R249). -/

namespace Sys2Proof.Machine

/-! ## Order of messages -/

/-- One sender, whatever its tag or handle register. -/
def sameSender : MsgFrom → MsgFrom → Bool
  | .tile x y _, .tile a b _ => x == a && y == b
  | .thread n g, .thread m h => n == m && g == h
  | _, _ => false

def netTarget : NetMsg → W64
  | .knotOp _ _ t _ _ _ => t
  | .knotReply _ _ _ _ _ _ t => t
  | .data _ t _ _ _ => t

def isReply : NetMsg → Bool
  | .knotReply .. => true
  | _ => false

/-- The message `ix`, unless one of its sender to the same target is before it (R244). -/
def netMessage (s : State) (ix : Nat) : Option NetMsg :=
  match s.net[ix]? with
  | none => none
  | some m =>
    if (s.net.take ix).any fun o => sameSender (netFrom o) (netFrom m) && netTarget o == netTarget m && isReply o == isReply m then none
    else some m

def dropNet (ix : Nat) (s : State) : State := { s with net := dropAt ix s.net }

/-- Flow and chip of a sender in this package. -/
def localAsker (s : State) (src : MsgFrom) (handle : W64) : Asker :=
  match src with
  | .thread n g => ⟨src, threadFlow (16 * n.toNat + (getTag s n.toNat g.toNat).thread.toNat), 0xFFFF⟩
  | .tile x y _ =>
    let k := sideOfTile x.toNat y.toNat
    ⟨src, (256 + k) * 64 + (senderEntry handle (getSide s k).senders).getD 0, 0xFFFF⟩
  | _ => ⟨src, 0, 0xFFFF⟩

/-! ## Knot operations at their home (R233, R234) -/

/-- R234: a shuttle thread sends its request again 64 cycles, of 1.6 GHz, after a not-met reply. -/
def retryNs : Nat := 40

def askAgain (n g : Nat) (s : State) : State :=
  let tag := getTag s n g
  if tag.valid then putTag n g { tag with resend := some (s.nowNs + retryNs) } s else s

/-- The reply of a home to a sender in the package. -/
def replyKnot (src : MsgFrom) (target : W64) (op : BitVec 3) (r : KnotReply) (k : Knot) (s : State) : State :=
  match src with
  | .thread n g =>
    if r.met then answerTag n.toNat g.toNat r.status [] false s
    else askAgain n.toNat g.toNat s
  | .tile _ _ _ =>
    if op = 1 then s else { s with net := s.net ++ [.knotReply src op r.status r.met k.count k.gen target] }
  | _ => s

/-- The signal of a descriptor (R197): a wall stop counts (R236), a knot of another package is reached over its chip link. -/
def serviceSignal (p : Nat) (target : W64) (s : State) : Option State :=
  let chip := bits 63 48 target.toNat
  let o := bits 47 0 target.toNat
  let r := classify s.fuses.variant o
  if chip = 0xFFFF || chip = s.links.chip.toNat then
    if isUnmapped r then some s
    else if reaches s p r then none
    else
      let s := updPart s p fun q => { q with sync := { q.sync with wallSignals := q.sync.wallSignals + 1 } }
      some (assertEvent (srcPart p 5) ((getPart s p).sync.wallSignals.setWidth 64) s)
  else if chip < 4096 then
    some (sendMessage p { chip := BitVec.ofNat 16 chip, cls := 2, target := BitVec.ofNat 48 o, flow := 0xF000, thread := 0, tag := 0
                          operand := BitVec.ofNat 32 (wideKnotWord 1 1 false) } [] [] (.service (BitVec.ofNat 5 p)) s).1
  else some s

/-- What stops a knot operation before its home: a descriptor's signal that goes elsewhere. -/
def divertedSignal (src : MsgFrom) (target : W64) (s : State) : Option State :=
  match src with
  | .service p => serviceSignal p.toNat target s
  | _ => none

/-- A message of a tile is refused for a reason other than `no_room` (R239); a knot operation through a handle is such a message
(R237). -/
def countRefused (src : MsgFrom) (s : State) : State :=
  match src with
  | .tile x y _ => msgError (ownerOf s (quadOf x.toNat y.toNat)) (quadOf x.toNat y.toNat) s
  | _ => s

/-- KNOT_OPERATION_APPLIED. -/
def applyNetKnot (ix : Nat) (s : State) : State :=
  match netMessage s ix with
  | some (.knotOp src u target op n first) =>
    (match divertedSignal src target s with
    | some s => dropNet ix s
    | none =>
      let o := bits 47 0 target.toNat
      let p := homePart s (homeAt s o)
      if !senderTurn s p 3 o src then noteWaiting p o src s
      else match knotAtHome (localAsker s src target) o op.toNat n.toNat u first s with
      | none => replyKnot src target op ⟨true, BitVec.ofNat 8 stBadTarget⟩ {} (countRefused src (dropNet ix s))
      | some (r, k, s) => replyKnot src target op r k (dropNet ix s))
  | _ => s

def execKnotOperationApplied (ix : Nat) (s : State) : Host.Outcome State Fault Refusal := .next (applyNetKnot ix s)

/-! ## Replies to tiles (R240) -/

/-- The handle register of a tile that holds a handle. -/
def handleReg (t : Tile) (h : W64) : Nat := ((List.range 8).find? fun k => getH t (BitVec.ofNat 3 k) == h).getD 0

/-- The waits of a tile without its first on a handle by an operation, and that one. -/
def takeWait (op : BitVec 3) (h : W64) : List KWait → Option KWait × List KWait
  | [] => (none, [])
  | w :: r =>
    if w.viaHandle && w.op == op && w.handle == h then (some w, r)
    else
      let (f, rest) := takeWait op h r
      (f, w :: rest)

def putWaits (ws : List KWait) (t : Tile) : Tile := { t with hold := { t.hold with waits := ws } }

/-- A reply reaches a tile: the wait ends, or asks again 32 W-beats later, or the operation faults. -/
def tileReply (c : BeatCtx) (op : BitVec 3) (h : W64) (st : Byte) (met : Bool) (t : Tile) : Tile :=
  let (w, rest) := takeWait op h t.hold.waits
  if st = 0 && met then putWaits rest t
  else if st = 0 then
    match w with
    | some w => putWaits (rest ++ [{ w with resend := some (c.wBeat + 32) }]) t
    | none => t
  else
    let k := (w.map fun w => w.k.toNat).getD (handleReg t h)
    let t := putWaits rest t
    recordFault (faultOf c t (knotFault st) 6 (k + 8 + st.toNat * 256) false) t

def deliverReply (ix : Nat) (s : State) : State :=
  match netMessage s ix with
  | some (.knotReply (.tile x y _) op st met _ _ target) =>
    let p := ownerOf s (quadOf x.toNat y.toNat)
    let k := tileKey x.toNat y.toNat
    putTileChecked p x.toNat y.toNat (tileReply (tileCtx s p x.toNat y.toNat) op target st met (getTile s k)) (dropNet ix s)
  | some (.knotReply ..) => dropNet ix s
  | _ => s

def execKnotReply (ix : Nat) (s : State) : Host.Outcome State Fault Refusal := .next (deliverReply ix s)

/-! ## Requests sent again (R234) -/

/-- The first wait of a tile that is due, as it asks again. -/
def dueWait (wBeat : Nat) : List KWait → Option (KWait × List KWait)
  | [] => none
  | w :: r =>
    if w.resend.isSome && decide (w.resend.getD 0 ≤ wBeat) then some (w, { w with resend := none } :: r)
    else (dueWait wBeat r).map fun e => (e.1, w :: e.2)

/-- Two words of the outbound queue, when it has room. -/
def retryTile (wBeat : Nat) (t : Tile) : Tile :=
  match dueWait wBeat t.hold.waits with
  | none => t
  | some (w, ws) =>
    if 16 < t.outQ.length + 2 then t
    else { putWaits ws t with outQ := t.outQ ++ knotWords w.handle w.op.toNat w.n.toNat false }

def retryThread (n g : Nat) (s : State) : State :=
  let tag := getTag s n g
  match tag.resend, tag.kind with
  | some due, some (.knot _ op v _) =>
    if s.nowNs < due || !tag.valid then s
    else
      let t := tag.thread.toNat
      let s := putTag n g { tag with resend := none } s
      (match placeOf s n tag.address 1 with
      | .remote chip o => sendRemote n g (threadMsg n t g chip o 2 (wideKnotWord op.toNat v.toNat false)) [] [] s
      | .package o => { s with net := s.net ++ [.knotOp (.thread (BitVec.ofNat 8 n) (BitVec.ofNat 6 g)) (userOf n t) (n64 o) op v false] }
      | _ => s)
  | _, _ => s

def execKnotRetry (a : KnotAsker) (s : State) : Host.Outcome State Fault Refusal :=
  .next (match a with
    | .tile a =>
      let k := atKey a
      putTile s k (retryTile (getPart s (ownerOfAt s a)).hold.wBeat (getTile s k))
    | .thread n g => retryThread n.val g.val s)

/-! ## The forwarder (R239) -/

def msgHandle (m : FwdMsg) : W64 := (m.words.head?.map (·.data)).getD 0

def msgWords (m : FwdMsg) : List (Pz 64) := (m.words.drop 1).map fun w => ⟨w.data, w.poison⟩

/-- Messages of a forwarder that may be sent: complete, of no tile and handle with an earlier one still there. -/
def sendable (ms : List FwdMsg) (due : FwdMsg → Bool) : Option (Nat × FwdMsg) :=
  let ix := (List.range ms.length).zip ms
  ix.find? fun e => e.2.complete && !e.2.sent && due e.2
    && !((ms.take e.1).any fun o => o.x == e.2.x && o.y == e.2.y && msgHandle o == msgHandle e.2)

def dropFwd (k i : Nat) (s : State) : State := updSide s k fun sd => { sd with fwd := dropAt i sd.fwd }
def markFwd (k i : Nat) (m : FwdMsg) (s : State) : State := updSide s k fun sd => { sd with fwd := setAt i m sd.fwd }

/-- A knot operation of a tile ends before its home: a signal without a fault, another with a reply. -/
def tileKnotEnds (x y : BitVec 10) (op : Nat) (h : W64) (st : Nat) (s : State) : State :=
  if op = 1 then s
  else { s with net := s.net ++ [.knotReply (.tile x y 0) (BitVec.ofNat 3 op) (BitVec.ofNat 8 st) true 0 0 h] }

/-- A tile's knot operation is refused before its home. -/
def tileKnotRefused (x y : BitVec 10) (op : Nat) (h : W64) (st : Nat) (s : State) : State :=
  tileKnotEnds x y op h st (countRefused (.tile x y 0) s)

/-- R236: the wall stops a tile's operation. -/
def tileWall (p op : Nat) (a : TileAt) (s : State) : State :=
  if op = 1 then
    let s := updPart s p fun q => { q with sync := { q.sync with wallSignals := q.sync.wallSignals + 1 } }
    assertEvent (srcPart p 5) ((getPart s p).sync.wallSignals.setWidth 64) s
  else countWall (.tile a) s

/-- How a message of a tile names it in packets: its side is the flow's, its lane and column stand in `src_thread`, its handle
register in `tag` (log 35). -/
def tileMsg (x y : Nat) (reg e chip o : Nat) (cls : Nat) (operand : Nat) : Outgoing :=
  { chip := BitVec.ofNat 16 chip, cls := BitVec.ofNat 4 cls, target := BitVec.ofNat 48 o
    flow := BitVec.ofNat 16 ((256 + sideOfTile x y) * 64 + e), thread := BitVec.ofNat 12 (laneOfTile y * 256 + x % 256)
    tag := BitVec.ofNat 6 reg, operand := BitVec.ofNat 32 operand }

def claimSender (k e : Nat) (h : W64) (s : State) : State :=
  updSide s k fun sd => { sd with senders := sPut {} e ⟨h, (sGet {} e sd.senders : Sender).acked⟩ sd.senders }

/-- A knot operation leaves the forwarder. -/
def forwardKnot (k i : Nat) (m : FwdMsg) (s : State) : State :=
  let h := msgHandle m
  let v := ((m.words[1]?).map fun w => w.data.toNat).getD 0
  let op := bits 2 0 v
  let n := bits 15 8 v
  let x := m.x.toNat
  let y := m.y.toNat
  let p := ownerOf s (quadOfSide k)
  let reg := handleReg (getTile s (tileKey x y)) h
  let src : MsgFrom := .tile m.x m.y (BitVec.ofNat 3 reg)
  let chip := bits 63 48 h.toNat
  let o := bits 47 0 h.toNat
  let r := classify s.fuses.variant o
  let s := dropFwd k i s
  if chip = 0xFFFF || chip = s.links.chip.toNat then
    if isUnmapped r then tileKnotRefused m.x m.y op h stUnmapped s
    else if !reaches s p r then tileKnotEnds m.x m.y op h stWall (tileWall p op ⟨m.x, m.y⟩ s)
    else { s with net := s.net ++ [.knotOp src ⟨true, 0, m.x, m.y⟩ h (BitVec.ofNat 3 op) (BitVec.ofNat 16 n) (bitAt 16 v)] }
  else if chip < 4096 then
    match senderEntry h (getSide s k).senders with
    | none => tileKnotRefused m.x m.y op h stTableFull s
    | some e =>
      let (s, ok) := sendMessage p (tileMsg x y reg e chip o 2 v) [] [] src (claimSender k e h s)
      if ok then s else tileKnotRefused m.x m.y op h stUnreachable s
  else tileKnotRefused m.x m.y op h stUnmapped s

/-- A data message leaves the forwarder: a trigger enters its queue, a message of this package is under way and keeps its place, one
for another package enters the departure side. -/
def forwardData (k i : Nat) (m : FwdMsg) (s : State) : State :=
  let h := msgHandle m
  let ws := msgWords m
  let x := m.x.toNat
  let y := m.y.toNat
  let g := quadOfSide k
  let p := ownerOf s g
  let reg := handleReg (getTile s (tileKey x y)) h
  let src : MsgFrom := .tile m.x m.y (BitVec.ofNat 3 reg)
  let chip := bits 63 48 h.toNat
  let o := bits 47 0 h.toNat
  let r := classify s.fuses.variant o
  let discard (s : State) : State := msgError p g (dropFwd k i s)
  let entry := senderEntry h (getSide s k).senders
  if chip = 0xFFFF || chip = s.links.chip.toNat then
    if isUnmapped r then discard s
    else if !reaches s p r then discard (countWall (.tile ⟨m.x, m.y⟩) s)
    else match homeOf r, ws with
    | .trigger j, [w] =>
      let (sd, ok) := enqueueTrigger w.data (getSide s j)
      if ok then dropFwd k i (putSide s j sd) else s
    | _, _ =>
      (match entry with
      | none => discard s
      | some e =>
        let s := markFwd k i { m with sent := true, retryAt := none } (claimSender k e h s)
        { s with net := s.net ++ [.data src h ws (8 * ws.length) 2] })
  else if chip < 4096 then
    match entry with
    | none => discard s
    | some e =>
      let cls := match homeOf r with
        | .queue _ _ => 1
        | _ => 0
      let (s, ok) := sendMessage p (tileMsg x y reg e chip o cls 0) (messageBytes ws (8 * ws.length)) (ws.map (·.poison)) src
        (claimSender k e h s)
      if ok then dropFwd k i s else discard s
  else discard s

def forwardMessage (k i : Nat) (m : FwdMsg) (s : State) : State :=
  if (m.words.head?.map (·.knot)).getD false then forwardKnot k i m s else forwardData k i m s

/-- A forwarder accepts no word while its partition is being snapshot (R438). -/
def forwards (s : State) (k : Nat) : Bool := (getPart s (ownerOf s (quadOfSide k))).debugging.state ≠ 3

def execForwarderMessage (die : DieNo) (side : SideNo) (s : State) : Host.Outcome State Fault Refusal :=
  let k := sideKey die.val side.val
  .next (if !forwards s k then s
    else match sendable (getSide s k).fwd (fun m => m.retryAt.isNone) with
    | some (i, m) => forwardMessage k i m s
    | none => s)

/-- A message refused with `no_room` is sent again. -/
def execForwarderRetry (die : DieNo) (side : SideNo) (s : State) : Host.Outcome State Fault Refusal :=
  let k := sideKey die.val side.val
  .next (if !forwards s k then s
    else match sendable (getSide s k).fwd (fun m => m.retryAt.isSome && decide (m.retryAt.getD 0 ≤ s.nowNs)) with
    | some (i, m) => forwardMessage k i m s
    | none => s)

/-! ## Messages at their home (R241 to R249) -/

/-- The forwarder's copy of a tile's message on its way. -/
def sentCopy (s : State) (k : Nat) (x y : BitVec 10) (h : W64) : Option (Nat × FwdMsg) :=
  let ms := (getSide s k).fwd
  ((List.range ms.length).zip ms).find? fun e => e.2.sent && e.2.x == x && e.2.y == y && msgHandle e.2 == h

/-- Sender, once the home has answered a message. -/
def answerSender (src : MsgFrom) (handle : W64) (st : Nat) (s : State) : State :=
  match src with
  | .thread n g =>
    let h := (getTag s n.toNat g.toNat).address
    let s := if st = 0 then updShuttle s n.toNat fun q => { q with senders := countAcked h q.senders } else s
    answerTag n.toNat g.toNat (BitVec.ofNat 8 st) [] false s
  | .tile x y _ =>
    let k := sideOfTile x.toNat y.toNat
    (match sentCopy s k x y handle with
    | none => s
    | some (i, m) =>
      if st = 0 then dropFwd k i (updSide s k fun sd => { sd with senders := countAcked handle sd.senders })
      else if st = stNoRoom then markFwd k i { m with sent := false, retryAt := some (s.nowNs + 1000) } s
      else msgError (ownerOf s (quadOfSide k)) (quadOfSide k) (dropFwd k i s))
  | _ => s

/-- Source word of a sender of this package (Table 8-6). -/
def sourceWord (s : State) : MsgFrom → W64
  | .tile x y _ => tileSource x y s.links.chip
  | .thread n g => threadSource (BitVec.ofNat 12 (16 * n.toNat + (getTag s n.toNat g.toNat).thread.toNat)) s.links.chip
  | _ => 0

/-- The message takes the combining-queue path. -/
def goesToQueue (s : State) (target : W64) (kind : Nat) : Bool :=
  kind == 1 || (kind == 2 && (match homeAt s (bits 47 0 target.toNat) with
    | .queue _ _ => true
    | _ => false))

/-- A message arrives at its home. -/
def messageArrives (queue : Bool) (ix : Nat) (s : State) : State :=
  match netMessage s ix with
  | some (.data src target ws len kind) =>
    if goesToQueue s target kind ≠ queue then s
    else
      let o := bits 47 0 target.toNat
      let p := homePart s (homeAt s o)
      let what := if queue then 2 else 1
      if !senderTurn s p what o src then noteWaiting p o src s
      else
        let (st, s) := messageAtHome (localAsker s src target) kind o (sourceWord s src) ws len s
        answerSender src target st (dropNet ix s)
  | _ => s

def execChannelMessageArrival (ix : Nat) (s : State) : Host.Outcome State Fault Refusal := .next (messageArrives false ix s)

def execCqContributionArrival (ix : Nat) (s : State) : Host.Outcome State Fault Refusal := .next (messageArrives true ix s)

/-- CQ_MESSAGE_WRITTEN: finished slots that waited for room. -/
def execCqMessageWritten (n : ShuttleNo) (q : Fin 16) (s : State) : Host.Outcome State Fault Refusal := .next (emitFinished n.val q.val s)

end Sys2Proof.Machine
end

