-- ==== Sys2Proof/Machine/LinkReceive.lean ====
section
/-! DEFINITION. Packets that arrive on a port: link checks, flows, delivery, and the end-to-end commands (11 R295 to R311). -/

namespace Sys2Proof.Machine

/-! ## The link layer (R295 to R297) -/

def isUp (s : State) (k : Nat) : Bool := (getPort s k).state == 2

/-- The receiver acknowledges up to the packet before the one it expects. -/
def sendLinkAck (k : Nat) (s : State) : State :=
  updPort s k fun q => { q with wire := q.wire ++ [.ack (q.lseqRx - 1)], sinceAck := 0, ackAt := s.nowNs }

/-- A packet that is not the one expected, or is damaged: dropped. A retry request names the packet expected, unless one already
waits for it. -/
def badPacket (k : Nat) (pk : Packet) (line : LineErrors) (crcOk : Bool) (s : State) : State :=
  updPort s k fun q =>
    let q := { countLine line q with
                      crcErrors := if crcOk then q.crcErrors else satAdd 16 q.crcErrors 1
                      fecBad := if line.bad then q.fecBad + 1 else q.fecBad }
    if q.asked && pk.lseq ≠ q.lseqRx then q else { q with asked := true, wire := q.wire ++ [.retry q.lseqRx] }

/-- A packet in order is accepted: acknowledged at least every 64, and its credits go back. -/
def goodPacket (k : Nat) (pk : Packet) (line : LineErrors) (s : State) : State :=
  let s := updPort s k fun q =>
    { countLine line q with
             lseqRx := q.lseqRx + 1, asked := false, sinceAck := q.sinceAck + 1, wire := q.wire ++ [.credit (creditsOf pk)] }
  if 64 ≤ (getPort s k).sinceAck then sendLinkAck k s else s

/-! ## Flows (R301 to R303) -/

def getFlow (s : State) (k key : Nat) : FlowRx := sGet {} key (getPort s k).flows
def putFlow (k key : Nat) (f : FlowRx) (s : State) : State := updPort s k fun q => { q with flows := sPut {} key f q.flows }

/-- Reorder slots of a port: its share of the die's store (R302). -/
def reorderShare (q : Port) : Nat := 8192 * q.lanes / 24

def storedPackets (q : Port) : Nat := (q.flows.map fun e => e.2.stored.length).sum

/-- Operand of a NAK: reason and status (log 37). -/
def nakOperand (reason st : Nat) : W32 := BitVec.ofNat 32 (reason + st * 2 ^ 8)

def sendNak (p : Nat) (pk : Packet) (reason st : Nat) (s : State) : State :=
  controlPacket p pk.srcChip pk.flow pk.fseq 9 (nakOperand reason st) s

/-- The flow is acknowledged up to the packet before the one it expects. -/
def sendE2eAck (p k : Nat) (chip flow : W16) (s : State) : State :=
  let f := getFlow s k (chipFlow chip flow)
  putFlow k (chipFlow chip flow) { f with sinceAck := 0, ackAt := s.nowNs } (controlPacket p chip flow (f.expected - 1) 8 0 s)

/-! ## Delivery (R293, R298, R303) -/

/-- How a packet in order ends at its target. -/
inductive Delivery
  | taken
  | full
  | final (st : Nat)
  deriving DecidableEq, Repr

/-- The tile of a request that came from a forwarder (log 35). -/
def tileOfFlow (flow thread : Nat) : Nat × Nat := tileOfLane (flow / 64 - 256) (thread / 256) (thread % 256)

def fromTile (flow : Nat) : Bool := 0x4000 ≤ flow && flow < 0x8000

/-- Source word of a message from another package (Table 8-6). -/
def remoteSource (pk : Packet) : W64 :=
  if fromTile pk.flow.toNat then
    let (x, y) := tileOfFlow pk.flow.toNat pk.srcThread.toNat
    tileSource (BitVec.ofNat 10 x) (BitVec.ofNat 10 y) pk.srcChip
  else threadSource pk.srcThread pk.srcChip

/-- Who asks for a knot operation from another package. -/
def remoteUser (pk : Packet) : KnotUser :=
  if fromTile pk.flow.toNat then
    let (x, y) := tileOfFlow pk.flow.toNat pk.srcThread.toNat
    ⟨true, 0, BitVec.ofNat 10 x, BitVec.ofNat 10 y⟩
  else ⟨false, pk.srcThread, 0, 0⟩

def remoteAsker (k : Nat) (pk : Packet) : Asker :=
  ⟨.remote (BitVec.ofNat 4 k) pk.srcChip pk.srcThread pk.tag, pk.flow.toNat, pk.srcChip.toNat⟩

/-- A reply in the flow of the request, with its tag. -/
def sendReply (p : Nat) (pk : Packet) (cls : BitVec 4) (operand : Nat) (d : Bytes) (poison : Bool) (s : State) : State :=
  (sendMessage p { chip := pk.srcChip, cls := cls, target := 0, flow := pk.flow, thread := pk.srcThread, tag := pk.tag
                   operand := BitVec.ofNat 32 operand } d (marksOf d.length poison) (.service (BitVec.ofNat 5 p)) s).1

/-- Reply word of a knot operation (R240, log 37). -/
def replyWord (r : KnotReply) (k : Knot) : Nat := b2n r.met + r.status.toNat * 2 ^ 8 + k.count.toNat * 2 ^ 16

/-- A target that the partition's wall stops or that does not exist (R298); 0 for neither. -/
def targetStop (s : State) (p o : Nat) : Nat :=
  let r := classify s.fuses.variant o
  if isUnmapped r then stUnmapped else if !reaches s p r then stWall else 0

def countArrival (p st : Nat) (s : State) : State :=
  if st = stWall then updPart s p fun q => { q with wallStops := q.wallStops + 1 } else s

/-- An operation from another package at its knot (R230, R234). The signal of a descriptor has no reply. -/
def remoteKnot (p k : Nat) (pk : Packet) (s : State) : Delivery × State :=
  let v := pk.operand.toNat
  let op := bits 2 0 v
  let n := bits 15 8 v + bits 31 24 v * 256
  match knotAtHome (remoteAsker k pk) pk.target.toNat op n (remoteUser pk) (bitAt 16 v) s with
  | none => (.final stBadTarget, s)
  | some (r, kn, s) =>
    (.taken, if pk.flow = 0xF000 || (op = 1 && fromTile pk.flow.toNat) then s else sendReply p pk 3 (replyWord r kn) [] false s)

/-- A read request: the reply carries its status. -/
def remoteReadServed (p : Nat) (pk : Packet) (s : State) : Delivery × State :=
  let size := 2 ^ (pk.operand.toNat % 8)
  let o := pk.target.toNat
  let by_ : Requester := .dxp (.operator (Fin.ofNat 17 p))
  let (a, s) := if o % size ≠ 0 || (isWindow (classify s.fuses.variant o) && misaligned64 o size) then ((⟨stMisaligned, [], false⟩ : Access), s)
    else readOffset by_ o size .clean s
  (.taken, sendReply p pk 5 a.status a.data a.poison s)

/-- A write request is a stamped input (R449); the acknowledgement carries its status. -/
def remoteWriteServed (p : Nat) (pk : Packet) (d : Bytes) (poison : Bool) (s : State) : Delivery × State :=
  let size := d.length
  let o := pk.target.toNat
  let by_ : Requester := .dxp (.operator (Fin.ofNat 17 p))
  let (a, s) := if size = 0 || o % size ≠ 0 || (isWindow (classify s.fuses.variant o) && misaligned64 o size) then ((⟨stMisaligned, [], false⟩ : Access), s)
    else writeOffset noBell by_ o d poison s
  let st := if a.status = stDone && wroteIntoPoison s o size then stPoisoned else a.status
  let s := if a.status = stDone then stampData p o 1 d s else s
  (.taken, sendReply p pk 7 st [] false s)

/-- A channel message or a contribution, complete. -/
def remoteMessage (k : Nat) (pk : Packet) (d : Bytes) (marks : List Bool) (s : State) : Delivery × State :=
  let ws : List (Pz 64) := (List.range ((d.length + 7) / 8)).map fun i => ⟨n64 (ofLe (bytesAt d (8 * i) 8)), marks.getD i false⟩
  let (st, s) := messageAtHome (remoteAsker k pk) pk.cls.toNat pk.target.toNat (remoteSource pk) ws d.length s
  (if st = 0 then .taken else if st = stNoRoom then .full else .final st, s)

/-- What a message's first packet shows already: the refusals that are final (R303). -/
def earlyRefusal (s : State) (pk : Packet) : Nat :=
  match homeAt s pk.target.toNat with
  | .channel n c =>
    let e := getChannel (getShuttle s n) c
    if pk.cls = 1 then stBadTarget else if !e.opened then stClosed else if e.maxMsg.toNat < pk.msgLen.toNat then stTooLong else 0
  | .queue n q =>
    let e := getQueue (getShuttle s n) q
    if pk.cls = 0 then stBadTarget else if !e.opened then stClosed
    else if pk.msgLen.toNat ≠ 8 + 4 * queueWidth e then stBadContribution else 0
  | _ => stBadTarget

/-- The refusal counts at its channel or queue. -/
def countRefusal (pk : Packet) (s : State) : State :=
  match homeAt s pk.target.toNat with
  | .channel n c => if pk.cls = 0 then updShuttle s n fun h => (refuseSend c 0 h).1 else s
  | .queue n q => if pk.cls = 1 then updShuttle s n fun h => (refuseAdd q 0 h).1 else s
  | _ => s

/-- A reply to a thread or to a tile of this package. -/
def takeReply (p : Nat) (pk : Packet) (d : Bytes) (s : State) : State :=
  let n := pk.srcThread.toNat / 16
  let g := pk.tag.toNat
  let v := pk.operand.toNat
  if pk.cls = 3 then
    let r : KnotReply := ⟨bitAt 0 v, BitVec.ofNat 8 (bits 15 8 v)⟩
    if fromTile pk.flow.toNat then
      let (x, y) := tileOfFlow pk.flow.toNat pk.srcThread.toNat
      let t := getTile s (tileKey x y)
      let h := getH t (BitVec.ofNat 3 g)
      let op := ((t.hold.waits.find? fun w => w.viaHandle && w.handle == h).map (·.op)).getD 0
      if ownerOf s (quadOf x y) = p then
        { s with net := s.net ++ [.knotReply (.tile (BitVec.ofNat 10 x) (BitVec.ofNat 10 y) (BitVec.ofNat 3 g)) op r.status r.met
          (BitVec.ofNat 16 (bits 31 16 v)) 0 h] }
      else s
    else if ownerOfShuttle s n ≠ p then s
    else if r.met then answerTag n g r.status [] false s
    else askAgain n g s
  else if ownerOfShuttle s n ≠ p then s
  else answerTag n g (BitVec.ofNat 8 v) d pk.poison s

/-- U64 step counter and the rest of a service message (Table 11-4). -/
def serviceMessage (p : Nat) (pk : Packet) (d : Bytes) (s : State) : State :=
  let step : BitVec 48 := BitVec.ofNat 48 (ofLe (bytesAt d 0 8))
  match pk.operand.toNat with
  | 1 => peerAborts p step s
  | 2 =>
    let n := ofLe (bytesAt d 8 4)
    peerCounted p pk.srcChip step ((List.range n).map fun i =>
      (n64 (ofLe (bytesAt d (12 + 16 * i) 8)), BitVec.ofNat 32 (ofLe (bytesAt d (20 + 16 * i) 4)))) s
  | 3 => peerArrives p pk.srcChip step s
  | _ => s

/-- A partition that is saved takes nothing in (R252). -/
def beingSaved (s : State) (p : Nat) : Bool :=
  let q := (getPart s p).step
  q.state == 7 || (q.reqPreempt && q.phase == 7)

/-- A whole message, its last packet in hand. -/
def deliverWhole (p k : Nat) (pk : Packet) (d : Bytes) (marks : List Bool) (s : State) : Delivery × State :=
  match pk.cls.toNat with
  | 0 => remoteMessage k pk d marks s
  | 1 => remoteMessage k pk d marks s
  | 2 => remoteKnot p k pk s
  | 4 => remoteReadServed p pk s
  | 6 => remoteWriteServed p pk d (marks.any id) s
  | 10 => (.taken, serviceMessage p pk d s)
  | _ => (.taken, takeReply p pk d s)

/-- Classes whose target the wall guards. -/
def wallGuards (c : BitVec 4) : Bool := c = 0 || c = 1 || c = 2 || c = 4 || c = 6

/-- A packet in order of its flow: the message grows, is delivered with its last packet, or ends with a refusal, and what is left of it
is then skipped. -/
def deliverPacket (p k : Nat) (f : FlowRx) (pk : Packet) (s : State) : Delivery × FlowRx × State :=
  let n := pk.payload.length
  let marks := List.replicate ((n + 7) / 8) pk.poison
  if f.skip ≠ 0 && !pk.first then (.taken, { f with skip := f.skip - n }, s)
  else
    let head := if pk.first then pk else f.head.getD pk
    let body := if pk.first then pk.payload else f.body ++ pk.payload
    let all := if pk.first then marks else f.marks ++ marks
    let stop := if pk.first && wallGuards pk.cls then targetStop s p pk.target.toNat else 0
    let early := if stop = 0 && pk.first && pk.cls.toNat < 2 then earlyRefusal s pk else 0
    let ended (skip : Nat) : FlowRx := { f with head := none, body := [], marks := [], skip := skip }
    if beingSaved s p || (getPart s p).debugging.state = 3 then (.full, f, s)
    else if stop ≠ 0 then (.final stop, ended (pk.msgLen.toNat - n), countArrival p stop s)
    else if early ≠ 0 then (.final early, ended (pk.msgLen.toNat - n), countRefusal pk s)
    else if !pk.last then (.taken, { f with head := some head, body := body, marks := all, skip := 0 }, s)
    else
      let (v, s) := deliverWhole p k head body all s
      (v, if v = .full then f else ended 0, s)

/-- A packet at the place its flow expects: delivered, acknowledged or answered with a NAK. True when the flow goes on. -/
def inOrderPacket (p k : Nat) (pk : Packet) (s : State) : Bool × State :=
  let key := chipFlow pk.srcChip pk.flow
  let (v, f, s) := deliverPacket p k (getFlow s k key) pk s
  match v with
  | .full => (false, sendNak p pk 1 0 s)
  | _ =>
    let f := { f with expected := pk.fseq + 1, sinceAck := f.sinceAck + 1, last := s.nowNs }
    let s := putFlow k key f s
    let s := match v with
      | .final st => sendNak p pk 3 st s
      | _ => s
    (true, if 32 ≤ f.sinceAck || pk.last then sendE2eAck p k pk.srcChip pk.flow s else s)

/-- Stored packets that now follow in order. -/
def drainStored (p k key : Nat) : Nat → State → State
  | 0, s => s
  | fuel + 1, s =>
    let f := getFlow s k key
    match f.stored.find? fun q => q.fseq == f.expected with
    | none => s
    | some pk =>
      let s := putFlow k key { f with stored := f.stored.filter fun q => q.fseq ≠ f.expected } s
      let (more, s) := inOrderPacket p k pk s
      if more then drainStored p k key fuel s else s

/-- A packet of a flow (R302). -/
def flowPacket (p k : Nat) (pk : Packet) (s : State) : State :=
  let key := chipFlow pk.srcChip pk.flow
  let q := getPort s k
  let f := getFlow s k key
  if !f.live && (!pk.flowStart || 65536 ≤ q.flows.length) then sendNak p pk 2 0 s
  else
    let s := if pk.flowStart then
        putFlow k key { expected := pk.fseq, live := true, last := s.nowNs, ackAt := if f.live then f.ackAt else s.nowNs } s
      else s
    let f := getFlow s k key
    let d := (pk.fseq - f.expected).toNat
    if d = 0 then
      let (more, s) := inOrderPacket p k pk s
      if more then drainStored p k key 4096 s else s
    else if d < 2048 then
      if f.stored.any fun u => u.fseq == pk.fseq then s
      else if storedPackets q + 64 < reorderShare q then putFlow k key { f with stored := f.stored ++ [pk] } s
      else sendNak p pk 0 0 s
    else
      -- a duplicate
      let s := if pk.cls = 4 && targetStop s p pk.target.toNat = 0 then (remoteReadServed p pk s).2 else s
      sendE2eAck p k pk.srcChip pk.flow s

/-- A packet that the link layer has accepted on a port of partition p. -/
def takePacket (p k : Nat) (pk : Packet) (s : State) : State :=
  let c := pk.cls.toNat
  if c = 11 || 12 ≤ c then s
  else if pk.destChip ≠ s.links.chip then forwardPacket p pk s
  else if replaying s p then updRecd s p fun r => { r with liveDropped := r.liveDropped + 1 }
  else
    let s := chipReachable p pk.srcChip s
    if c = 8 then e2eAcked p pk.srcChip pk.flow pk.fseq s
    else if c = 9 then
      e2eNak p pk.srcChip pk.flow pk.fseq (BitVec.ofNat 2 pk.operand.toNat) (BitVec.ofNat 8 (bits 15 8 pk.operand.toNat)) s
    else flowPacket p k pk s

/-- PACKET_RECEIVE. -/
def receivePacket (k : Nat) (pk : Packet) (line : LineErrors) (s : State) : State :=
  if !isUp s k then s
  else
    let crcOk := packetCrc pk == pk.crc
    if line.bad || !crcOk || pk.lseq ≠ (getPort s k).lseqRx then badPacket k pk line crcOk s
    else
      let s := goodPacket k pk line s
      let p := portOwner s k
      if p = 0 then s else takePacket p k pk s

def execPacketReceive (port : PortNo) (pk : Packet) (line : LineErrors) (s : State) : Host.Outcome State Fault Refusal :=
  .next (receivePacket port.val pk line s)

/-! ## Link control (R295 to R297) -/

def execLinkRetryRequest (port : PortNo) (lseq : BitVec 12) (s : State) : Host.Outcome State Fault Refusal :=
  .next (if isUp s port.val then linkRetry port.val lseq s else s)

def execLinkAck (port : PortNo) (lseq : BitVec 12) (s : State) : Host.Outcome State Fault Refusal :=
  .next (if isUp s port.val then updPort s port.val fun q => { q with replay := ackReplay lseq q.replay } else s)

/-- Credits of the peer's input buffer of 128 KiB, in units of 32 bytes. -/
def execCreditGrant (port : PortNo) (units : Nat) (s : State) : Host.Outcome State Fault Refusal :=
  .next (if isUp s port.val then updPort s port.val fun q => { q with credits := min (q.credits + units) 4096 } else s)

def execLossOfSignal (port : PortNo) (s : State) : Host.Outcome State Fault Refusal :=
  .next (if isUp s port.val || (getPort s port.val).state = 5 then portDown port.val 4 s else s)

/-- 200 ns after the last acknowledgement. -/
def linkAckDue (q : Port) (now : Nat) : Bool := q.sinceAck ≠ 0 && q.ackAt + 200 ≤ now

def execLinkAcknowledgementTimer (port : PortNo) (s : State) : Host.Outcome State Fault Refusal :=
  .next (if isUp s port.val && linkAckDue (getPort s port.val) s.nowNs then sendLinkAck port.val s else s)

/-! ## End to end (R299 to R304) -/

/-- A packet leaves; during a snapshot and a replay nothing does. -/
def execPacketDeparture (p : PartNo) (s : State) : Host.Outcome State Fault Refusal := .next (departPacket p.val s)

/-- A control packet of a peer reaches the partition of a port, as an arriving packet does. -/
def fromPeer (k : Nat) (chip : W16) (f : Nat → State → State) (s : State) : State :=
  let p := portOwner s k
  if !isUp s k || p = 0 then s
  else if replaying s p then updRecd s p fun r => { r with liveDropped := r.liveDropped + 1 }
  else f p (chipReachable p chip s)

def execE2eAck (port : PortNo) (chip flow : W16) (fseq : BitVec 12) (s : State) : Host.Outcome State Fault Refusal :=
  .next (fromPeer port.val chip (fun p s => e2eAcked p chip flow fseq s) s)

def execNak (port : PortNo) (chip flow : W16) (fseq : BitVec 12) (reason : BitVec 2) (status : Byte) (s : State) :
    Host.Outcome State Fault Refusal :=
  .next (fromPeer port.val chip (fun p s => e2eNak p chip flow fseq reason status s) s)

/-- The retransmission that a NAK asked for. -/
def nakResend (p : Nat) (chip flow : W16) (s : State) : State :=
  match sGet none (chipFlow chip flow) (getRoute s p).resend with
  | some (due, fseq) => if due ≤ s.nowNs then resendFlow p chip flow fseq s else s
  | none => s

def execNakRetransmit (p : PartNo) (chip flow : W16) (s : State) : Host.Outcome State Fault Refusal := .next (nakResend p.val chip flow s)

/-- A retained packet of the flow has had no answer for the timeout. -/
def isLate (s : State) (p : Nat) (chip flow : W16) (t : TxPacket) : Bool :=
  t.pk.destChip == chip && t.pk.flow == flow && (match t.sent with
    | some at_ => decide (at_ + (getRoute s p).e2eNs.toNat ≤ s.nowNs)
    | none => false)

/-- Its flow goes out again from it on, and it counts a timeout. -/
def flowTimeout (p : Nat) (chip flow : W16) (s : State) : State :=
  match (getRoute s p).retained.find? (isLate s p chip flow) with
  | none => s
  | some t =>
    let count (u : TxPacket) : TxPacket :=
      if isLate s p chip flow u && u.pk.fseq == t.pk.fseq then { u with tries := u.tries + 1 } else u
    let s := updRoute s p fun r => { r with retained := r.retained.map count }
    resendFlow p chip flow t.pk.fseq s

def execE2eTimeout (p : PartNo) (chip flow : W16) (s : State) : Host.Outcome State Fault Refusal := .next (flowTimeout p.val chip flow s)

/-- R304: no usable candidate for the partition's time, or 64 timeouts in a row of one packet. A chip that no route was ever given has
had none since the start. -/
def unreachableDue (s : State) (p : Nat) (chip : W16) : Bool :=
  let r := getRoute s p
  let since := (sGet none chip.toNat r.empty).getD 0
  ((candidates s p chip).isEmpty && decide (since + r.unreachNs.toNat ≤ s.nowNs))
    || (r.retained ++ r.waiting).any fun t => t.pk.destChip == chip && !t.transit && decide (64 ≤ t.tries)

def execPeerUnreachable (p : PartNo) (chip : W16) (s : State) : Host.Outcome State Fault Refusal :=
  .next (if partExists s p.val && chip.toNat < 4096 && chip ≠ s.links.chip && unreachableDue s p.val chip then chipUnreachable p.val chip s else s)

/-- 1 ms without a delivery and with no stored packet (R302). -/
def flowIdle (f : FlowRx) (now : Nat) : Bool := f.live && f.stored.isEmpty && f.last + 1000000 ≤ now

def execFlowEntryExpiry (port : PortNo) (chip flow : W16) (s : State) : Host.Outcome State Fault Refusal :=
  let key := chipFlow chip flow
  .next (if flowIdle (getFlow s port.val key) s.nowNs then putFlow port.val key {} s else s)

/-- 2 µs after the last acknowledgement of the flow. -/
def e2eAckDue (f : FlowRx) (now : Nat) : Bool := f.live && f.sinceAck ≠ 0 && f.ackAt + 2000 ≤ now

def execE2eAcknowledgementTimer (port : PortNo) (chip flow : W16) (s : State) : Host.Outcome State Fault Refusal :=
  let p := portOwner s port.val
  .next (if p ≠ 0 && e2eAckDue (getFlow s port.val (chipFlow chip flow)) s.nowNs then sendE2eAck p port.val chip flow s else s)

/-! ## Entries of links (R289, R290, R299, R304) -/

def execLaneMapWrite (r : Role) (map : Bytes) (s : State) : Host.Outcome State Fault Refusal := .next (writeByName none r 0x5000 2 map s)

def execPortModeWrite (r : Role) (port : PortNo) (mode : Byte) (s : State) : Host.Outcome State Fault Refusal :=
  .next (writeByName none r (0x5010 + port.val) 1 [mode] s)

/-- One entry of a route table, written by itself. -/
def execRouteTableWrite (r : Role) (p : PartNo) (chip : BitVec 12) (ports : W16) (s : State) : Host.Outcome State Fault Refusal :=
  let old := wordsBytes 4096 (getRoute s p.val).table
  let new := wordsBytes 4096 (sPut 0 chip.toNat ports (getRoute s p.val).table)
  .next (roleRequest none r (0x5110 + p.val) 1 new
    (writeWith (0x5110 + p.val) 0x5110 p.val 1 true old new (writeRouteEntry p.val chip.toNat ports)) s)

def execUnreachableChipsWrite (r : Role) (p : PartNo) (b : Bytes) (s : State) : Host.Outcome State Fault Refusal :=
  .next (writeByName none r (0x5110 + p.val) 6 b s)

/-! ## Rack time (R311) -/

/-- A pulse master's exchange with its sync port's peer is due: at once while it acquires, else every 1 ms. -/
def syncDue (s : State) : Bool :=
  let l := s.links
  l.role == 1 && decide (l.syncPort.toNat < 12) && isUp s l.syncPort.toNat && (l.syncState == 1 || decide (l.lastSync + 1000000 ≤ s.nowNs))

/-- The correction, rounded towards minus infinity (log 38). -/
def syncExchange (t1 t2 t3 t4 : Int) (s : State) : State :=
  if syncDue s then
    let d := ((t2 - t1) - (t4 - t3)) / 2
    { s with rackNs := BitVec.ofInt 64 (s.rackNs.toNat + d), links := { s.links with syncState := 0, lastSync := s.nowNs } }
  else s

def execTimeSyncExchange (t1 t2 t3 t4 : Int) (s : State) : Host.Outcome State Fault Refusal := .next (syncExchange t1 t2 t3 t4 s)

end Sys2Proof.Machine
end

