-- ==== Sys2Proof/Machine/Ingest.lean ====
section
/-! DEFINITION. Ingest ports (11 R312 to R316), what a replay feeds to the partition (16 R448), and the W-beats of a partition, in
which it is fed. -/

namespace Sys2Proof.Machine

/-! ## Spool frames (R313, R314) -/

def getSlot (s : State) (k i : Nat) : SpoolSlot := sGet {} i (getPort s k).spool
def putSlot (k i : Nat) (x : SpoolSlot) (s : State) : State := updPort s k fun q => { q with spool := sPut {} i x q.spool }

def spoolLength (x : SpoolSlot) : Nat := bits 43 26 x.w3.toNat

/-- Package offset of a slot's buffer. -/
def spoolBuffer (x : SpoolSlot) : Nat := 0x200000000000 + bits 7 0 x.w3.toNat * 0x40000 + bits 25 8 x.w3.toNat

/-- A slot completes, and signals its notify knot by 1. -/
def endSpool (k i : Nat) (state : BitVec 2) (s : State) : State :=
  let x := getSlot s k i
  let n := bits 7 0 x.w3.toNat
  let s := putSlot k i { x with state := state } s
  wakeShuttle n (updShuttle s n fun h => (shuttleKnot 1 1 ⟨false, 0, 0, 0⟩ false (bits 15 8 x.w0.toNat) h).1)

/-- Bytes of a request that have arrived. -/
def markGot (off n : Nat) (m : Sparse Bool) : Sparse Bool := (List.range n).foldl (fun m i => sPut false (off + i) true m) m

/-- Payload into the buffer, from byte `off` of the request on. -/
def spoolBytes (k i off : Nat) (d : Bytes) (s : State) : State :=
  let x := getSlot s k i
  let s := updShuttle s (bits 7 0 x.w3.toNat) (localWrite (bits 25 8 x.w3.toNat + off) d false)
  let got := markGot off d.length x.got
  let s := putSlot k i { x with got := got, received := BitVec.ofNat 32 got.length, since := s.nowNs } s
  if spoolLength x ≤ got.length then endSpool k i 2 s else s

def dropFrame (k : Nat) (s : State) : State := updPort s k fun q => { q with rxDrops := q.rxDrops + 1 }

/-- The busy slot of a request number. -/
def slotOf (s : State) (k : Nat) (id : W32) : Option Nat :=
  let i := id.toNat % 64
  let x := getSlot s k i
  if x.state = 1 && x.count.toNat = id.toNat / 64 then some i else none

/-- The port's partition replays: what arrives on the port is dropped and counted. -/
def liveDrop (k : Nat) (f : State → State) (s : State) : State :=
  let p := portOwner s k
  if replaying s p then updRecd s p fun r => { r with liveDropped := r.liveDropped + 1 } else f s

def ingestUp (s : State) (k : Nat) : Bool := (getPort s k).state == 5

def dataFrame (k : Nat) (id : W32) (off : W64) (d : Bytes) (check : W32) (s : State) : State :=
  match slotOf s k id with
  | none => dropFrame k s
  | some i =>
    let x := getSlot s k i
    let at_ := off.toNat - x.w2.toNat
    if crc32c d ≠ check || d.isEmpty || 8192 < d.length || off.toNat < x.w2.toNat || spoolLength x < at_ + d.length then dropFrame k s
    else
      let s := recordNow (portOwner s k) 5 false 0 (spoolBuffer x + at_) 0xFFFF d s
      spoolBytes k i at_ d s

def execSpoolDataFrame (port : PortNo) (id : W32) (off : W64) (d : Bytes) (check : W32) (s : State) : Host.Outcome State Fault Refusal :=
  .next (if ingestUp s port.val then liveDrop port.val (dataFrame port.val id off d check) s else s)

def errorFrame (k : Nat) (id code : W32) (s : State) : State :=
  match slotOf s k id with
  | none => dropFrame k s
  | some i => endSpool k i 3 (putSlot k i { getSlot s k i with error := code.setWidth 24 } s)

def execSpoolErrorFrame (port : PortNo) (id code : W32) (s : State) : Host.Outcome State Fault Refusal :=
  .next (if ingestUp s port.val then liveDrop port.val (errorFrame port.val id code) s else s)

/-- Chunks of 8,192 bytes of a request with a byte missing. -/
def missingChunks (x : SpoolSlot) : List (Nat × Nat) :=
  (List.range ((spoolLength x + 8191) / 8192)).filterMap fun c =>
    let n := min 8192 (spoolLength x - 8192 * c)
    if (List.range n).all fun j => sGet false (8192 * c + j) x.got then none else some (8192 * c, n)

/-- 500 µs of silence: READ again, or the slot ends after 8 tries. -/
def spoolSilent (k i : Nat) (s : State) : State :=
  let x := getSlot s k i
  if x.state ≠ 1 || s.nowNs < x.since + 500000 then s
  else if 8 ≤ x.tries.toNat then endSpool k i 3 (putSlot k i { x with error := 0xFFFFFF } s)
  else
    sendReads k ((missingChunks x).map fun c => spoolRead i x c.1 c.2) (putSlot k i { x with tries := x.tries + 1, since := s.nowNs } s)

def execSpoolRetryTimeout (port : PortNo) (slot : Fin 64) (s : State) : Host.Outcome State Fault Refusal :=
  .next (if replaying s (portOwner s port.val) then s else spoolSilent port.val slot.val s)

/-- A thread writes a whole request. -/
def requestSpool (by_ : Requester) (k i : Nat) (ws : List W64) (s : State) : State :=
  if !isShuttle by_ || !portFitted s.fuses.variant k then s
  else if !mayReach s (.port k (0x2000 + 32 * i)) by_ then countWall by_ s
  else ((List.range 4).zip ws).foldl (fun s e => putSpoolWord k (0x2000 + 32 * i + 8 * e.1) e.2 s) s

def execSpoolRequest (by_ : Requester) (port : PortNo) (slot : Fin 64) (w0 w1 w2 w3 : W64) (s : State) : Host.Outcome State Fault Refusal :=
  .next (requestSpool by_ port.val slot.val [w0, w1, w2, w3] s)

def execSpoolStatusRead (by_ : Requester) (port : PortNo) (slot : Fin 64) (s : State) : Host.Outcome State Fault Refusal :=
  let (a, s) := readOffset by_ (0x300010000000 + port.val * 0x100000 + 0x3000 + 8 * slot.val) 8 .clean s
  .next (answer (statusTo by_ a.status) a.data s)

/-! ## Other frames of an ingest port (R312) -/

/-- The port's own address. -/
def ingestHas (s : State) (k : Nat) (target : W128) : Bool :=
  let a := fixedBytes 16 (getPort s k).ipv6
  ingestUp s k && !allZero a && target.toNat == ofBe a

/-- The answer to a Neighbor Solicitation: target address and MAC address. -/
def advertisement (s : State) (k : Nat) (target : W128) : Bytes := beBytes 16 target.toNat ++ beBytes 6 (getPort s k).mac.toNat

def execNeighborSolicitation (port : PortNo) (target _source : W128) (s : State) : Host.Outcome State Fault Refusal :=
  .next (if ingestHas s port.val target then putOut (.port port.val (advertisement s port.val target)) s else s)

def execEchoRequest (port : PortNo) (target _source : W128) (payload : Bytes) (s : State) : Host.Outcome State Fault Refusal :=
  .next (if ingestHas s port.val target then putOut (.port port.val payload) s else s)

def execPauseFrame (port : PortNo) (pause : Bool) (s : State) : Host.Outcome State Fault Refusal :=
  .next (if ingestUp s port.val && pause then updPort s port.val fun q => { q with pauses := q.pauses + 1 } else s)

/-! ## What a replay feeds (R448) -/

/-- The busy slot of a port of the partition whose buffer holds an offset. -/
def slotAtOffset (s : State) (p o n : Nat) : Option (Nat × Nat) :=
  ((portsOfPart s p).flatMap fun k => (List.range 64).map fun i => (k, i)).find? fun e =>
    let x := getSlot s e.1 e.2
    x.state == 1 && spoolBuffer x ≤ o && o + n ≤ spoolBuffer x + spoolLength x

/-- Who sent a recorded message from another package. The entry does not hold its thread or tile: a free value stands in the record
header (log 30). -/
def feedSource (e : RecEntry) (s : State) : W64 × State :=
  let (n, s) := takeFree s
  (n64 (Config.reading n % 2 ^ 40 + e.srcChip * 2 ^ 40), s)

def feedAsker (e : RecEntry) : Asker := ⟨.remote 0 (BitVec.ofNat 16 e.srcChip) 0 0, e.flow, e.srcChip⟩

/-- A message or contribution of the record reaches its home, where it consumes its entry; without room it waits. -/
def feedMessage (e : RecEntry) (s : State) : State :=
  let (w, s) := feedSource e s
  let d := e.payload
  let ws : List (Pz 64) := (List.range ((d.length + 7) / 8)).map fun i => ⟨n64 (ofLe (bytesAt d (8 * i) 8)), false⟩
  let (st, s') := messageAtHome (feedAsker e) (e.kind - 1) (bits 47 0 e.target) w ws d.length s
  if st = 0 then s' else s

def feedKnot (e : RecEntry) (s : State) : State :=
  let v := ofLe (bytesAt e.payload 0 8)
  let u := ofLe (bytesAt e.payload 8 8)
  let user : KnotUser := if bitAt 63 u then ⟨false, BitVec.ofNat 12 (u / 2 ^ 32), 0, 0⟩
    else ⟨true, 0, BitVec.ofNat 10 u, BitVec.ofNat 10 (u / 2 ^ 16)⟩
  match knotAtHome (feedAsker e) (bits 47 0 e.target) (bits 2 0 v) (bits 15 8 v + bits 31 24 v * 256) user (bitAt 16 v) s with
  | some (_, _, s) => s
  | none => s

/-- One recorded entry of the step whose turn has come. -/
def feedEntry (p i : Nat) (e : RecEntry) (s : State) : State :=
  let first (s : State) : Bool := (nextFor s p e.kind e.target).map (·.1) == some i
  match e.kind with
  | 1 => if !e.loc && first s then feedMessage e s else s
  | 2 => if !e.loc && first s then feedMessage e s else s
  | 3 => if !e.loc && first s then feedKnot e s else s
  | 5 =>
    (match slotAtOffset s p e.target e.payload.length with
    | some (k, j) => consume p i (spoolBytes k j (e.target - spoolBuffer (getSlot s k j)) e.payload s)
    | none => s)
  | 6 =>
    if ringKind (getRing s p) = 0 then s
    else consume p i (ringTakes p ((List.range 4).map fun j => n64 (ofLe (bytesAt e.payload (8 * j) 8))) s)
  | _ => s

/-- Entries of the step in progress that had taken effect by now feed the partition, and queues write what waits for its turn. -/
def feedReplay (p : Nat) (s : State) : State :=
  if !replaying s p || !inStep s p then s
  else
    let due := (unconsumed s p).filter fun e => e.2.step == (getPart s p).step.counter.toNat && decide (e.2.offset ≤ stepOffset s p)
    due.foldl (fun s e => feedEntry p e.1 e.2 s) s

/-! ## The W-beats of a partition (R206, R207) -/

def execExecutingWBeat (p : PartNo) (s : State) : Host.Outcome State Fault Refusal :=
  .next (if partExists s p && executes (getPart s p).hold then partExecutes p (feedReplay p s) else s)

def execHeldWBeat (p : PartNo) (s : State) : Host.Outcome State Fault Refusal :=
  .next (if partExists s p && !executes (getPart s p).hold then partHeld p (feedReplay p s) else s)

end Sys2Proof.Machine
end

