-- ==== Sys2Proof/Machine/StitchSlots.lean ====
section
/-! DEFINITION. The slot operations of a stitch word as commands (03 Tables 3-4 to 3-10): one meaning for each, in one tile, in
the current S-beat of its partition (log 14). -/

namespace Sys2Proof.Machine

/-! ## S-slot -/

def execAdd (a : TileAt) (f : SRR) (s : State) : Host.Outcome State Fault Refusal :=
  slotCmd s a (sWord 0x01 (sRest f.rd f.ra f.rb)) fun c t => sRR c 0x01 f t

def execSub (a : TileAt) (f : SRR) (s : State) : Host.Outcome State Fault Refusal :=
  slotCmd s a (sWord 0x02 (sRest f.rd f.ra f.rb)) fun c t => sRR c 0x02 f t

def execAnd (a : TileAt) (f : SRR) (s : State) : Host.Outcome State Fault Refusal :=
  slotCmd s a (sWord 0x03 (sRest f.rd f.ra f.rb)) fun c t => sRR c 0x03 f t

def execOr (a : TileAt) (f : SRR) (s : State) : Host.Outcome State Fault Refusal :=
  slotCmd s a (sWord 0x04 (sRest f.rd f.ra f.rb)) fun c t => sRR c 0x04 f t

def execXor (a : TileAt) (f : SRR) (s : State) : Host.Outcome State Fault Refusal :=
  slotCmd s a (sWord 0x05 (sRest f.rd f.ra f.rb)) fun c t => sRR c 0x05 f t

def execShl (a : TileAt) (f : SRR) (s : State) : Host.Outcome State Fault Refusal :=
  slotCmd s a (sWord 0x06 (sRest f.rd f.ra f.rb)) fun c t => sRR c 0x06 f t

def execShr (a : TileAt) (f : SRR) (s : State) : Host.Outcome State Fault Refusal :=
  slotCmd s a (sWord 0x07 (sRest f.rd f.ra f.rb)) fun c t => sRR c 0x07 f t

def execSra (a : TileAt) (f : SRR) (s : State) : Host.Outcome State Fault Refusal :=
  slotCmd s a (sWord 0x08 (sRest f.rd f.ra f.rb)) fun c t => sRR c 0x08 f t

def execSlt (a : TileAt) (f : SRR) (s : State) : Host.Outcome State Fault Refusal :=
  slotCmd s a (sWord 0x09 (sRest f.rd f.ra f.rb)) fun c t => sRR c 0x09 f t

def execSltu (a : TileAt) (f : SRR) (s : State) : Host.Outcome State Fault Refusal :=
  slotCmd s a (sWord 0x0A (sRest f.rd f.ra f.rb)) fun c t => sRR c 0x0A f t

def execMul (a : TileAt) (f : SRR) (s : State) : Host.Outcome State Fault Refusal :=
  slotCmd s a (sWord 0x0B (sRest f.rd f.ra f.rb)) fun c t => sRR c 0x0B f t

/-- Bits of a register-immediate operation. -/
def sRestImm (f : SRI) : Nat := f.rd.toNat * 2 ^ 14 + f.ra.toNat * 2 ^ 10 + f.imm.toNat

def execAddi (a : TileAt) (f : SRI) (s : State) : Host.Outcome State Fault Refusal :=
  slotCmd s a (sWord 0x10 (sRestImm f)) fun c t => sRI c 0x10 f t

def execAndi (a : TileAt) (f : SRI) (s : State) : Host.Outcome State Fault Refusal :=
  slotCmd s a (sWord 0x11 (sRestImm f)) fun c t => sRI c 0x11 f t

def execOri (a : TileAt) (f : SRI) (s : State) : Host.Outcome State Fault Refusal :=
  slotCmd s a (sWord 0x12 (sRestImm f)) fun c t => sRI c 0x12 f t

def execLi (a : TileAt) (rd : BitVec 4) (imm : BitVec 14) (s : State) : Host.Outcome State Fault Refusal :=
  slotCmd s a (sWord 0x13 (rd.toNat * 2 ^ 14 + imm.toNat)) fun c t => sLi c rd imm t

def execLui (a : TileAt) (rd : BitVec 4) (imm : BitVec 14) (s : State) : Host.Outcome State Fault Refusal :=
  slotCmd s a (sWord 0x14 (rd.toNat * 2 ^ 14 + imm.toNat)) fun c t => sLui c rd imm t

def sRestMem (f : SMem) : Nat := f.r.toNat * 2 ^ 14 + f.bank.toNat * 2 ^ 10 + f.word.toNat * 2 ^ 3 + f.half.toNat * 2 ^ 2

def sRestPtr (f : SPtr) : Nat := f.r.toNat * 2 ^ 14 + f.ptr.toNat * 2 ^ 11 + f.half.toNat * 2 ^ 10 + b2n f.inc * 2 ^ 9

def execSld (a : TileAt) (f : SMem) (s : State) : Host.Outcome State Fault Refusal :=
  slotCmd s a (sWord 0x18 (sRestMem f)) fun c t => sSld c f t

def execSst (a : TileAt) (f : SMem) (s : State) : Host.Outcome State Fault Refusal :=
  slotCmd s a (sWord 0x19 (sRestMem f)) fun c t => sSst c f t

def execSldp (a : TileAt) (f : SPtr) (s : State) : Host.Outcome State Fault Refusal :=
  slotCmd s a (sWord 0x1A (sRestPtr f)) fun c t => sSldp c f t

def execSstp (a : TileAt) (f : SPtr) (s : State) : Host.Outcome State Fault Refusal :=
  slotCmd s a (sWord 0x1B (sRestPtr f)) fun c t => sSstp c f t

def execSetp (a : TileAt) (ptr : BitVec 3) (bank : BitVec 4) (word : BitVec 7) (s : State) : Host.Outcome State Fault Refusal :=
  slotCmd s a (sWord 0x20 (ptr.toNat * 2 ^ 15 + bank.toNat * 2 ^ 11 + word.toNat * 2 ^ 4)) fun _ t => sSetp ptr bank word t

def execSetps (a : TileAt) (ptr : BitVec 3) (stride : BitVec 8) (s : State) : Host.Outcome State Fault Refusal :=
  slotCmd s a (sWord 0x21 (ptr.toNat * 2 ^ 15 + stride.toNat * 2 ^ 7)) fun _ t => sSetps ptr stride t

def execSetpr (a : TileAt) (ptr : BitVec 3) (ra : BitVec 4) (s : State) : Host.Outcome State Fault Refusal :=
  slotCmd s a (sWord 0x22 (ptr.toNat * 2 ^ 15 + ra.toNat * 2 ^ 10)) fun c t => sSetpr c ptr ra t

def execGetp (a : TileAt) (rd : BitVec 4) (ptr : BitVec 3) (s : State) : Host.Outcome State Fault Refusal :=
  slotCmd s a (sWord 0x23 (rd.toNat * 2 ^ 14 + ptr.toNat * 2 ^ 11)) fun c t => sGetp c rd ptr t

def execJmp (a : TileAt) (target : BitVec 6) (s : State) : Host.Outcome State Fault Refusal :=
  slotCmd s a (sWord 0x28 target.toNat) fun c t => sJmp c target t

def execBz (a : TileAt) (ra : BitVec 4) (target : BitVec 6) (s : State) : Host.Outcome State Fault Refusal :=
  slotCmd s a (sWord 0x29 (ra.toNat * 2 ^ 10 + target.toNat)) fun c t => sBz c true ra target t

def execBnz (a : TileAt) (ra : BitVec 4) (target : BitVec 6) (s : State) : Host.Outcome State Fault Refusal :=
  slotCmd s a (sWord 0x2A (ra.toNat * 2 ^ 10 + target.toNat)) fun c t => sBz c false ra target t

def execJr (a : TileAt) (ra : BitVec 4) (s : State) : Host.Outcome State Fault Refusal :=
  slotCmd s a (sWord 0x2B (ra.toNat * 2 ^ 10)) fun c t => sJr c ra t

def execSwap (a : TileAt) (target : BitVec 6) (s : State) : Host.Outcome State Fault Refusal :=
  slotCmd s a (sWord 0x2C target.toNat) fun c t => sSwap c target t

def execLoop (a : TileAt) (f : SLoop) (s : State) : Host.Outcome State Fault Refusal :=
  slotCmd s a (sWord 0x30 (f.level.toNat * 2 ^ 17 + b2n f.fromReg * 2 ^ 16 + f.stop.toNat * 2 ^ 10 + f.count.toNat)) 
    fun c t => sLoop c f t

def execMode (a : TileAt) (m : Mode) (s : State) : Host.Outcome State Fault Refusal :=
  slotCmd s a (sWord 0x34 (m.mfmt.toNat * 2 ^ 11 + m.rmode.toNat * 2 ^ 9 + m.srBits.toNat * 2 ^ 4)) fun c t => sMode c m t

def execModer (a : TileAt) (ra : BitVec 4) (s : State) : Host.Outcome State Fault Refusal :=
  slotCmd s a (sWord 0x35 (ra.toNat * 2 ^ 10)) fun c t => sModer c ra t

/-- The pending mode comes into force at the end of the beat it is due in (R94). -/
def execModeTakesEffect (a : TileAt) (s : State) : Host.Outcome State Fault Refusal :=
  slotCmd s a 0 fun c t => landMode c t

def execPush (a : TileAt) (handle : BitVec 3) (ra rb : BitVec 4) (s : State) : Host.Outcome State Fault Refusal :=
  slotCmd s a (sWord 0x38 (handle.toNat * 2 ^ 15 + ra.toNat * 2 ^ 10 + rb.toNat * 2 ^ 6)) fun c t => sPush c handle ra rb t

def execHoop (a : TileAt) (ra : BitVec 4) (s : State) : Host.Outcome State Fault Refusal :=
  slotCmd s a (sWord 0x3C (ra.toNat * 2 ^ 10)) fun c t => sHoop c ra t

def execRdsb (a : TileAt) (rd : BitVec 4) (s : State) : Host.Outcome State Fault Refusal :=
  slotCmd s a (sWord 0x3D (rd.toNat * 2 ^ 14)) fun c t => sRdsb c rd t

/-! ## V-slot -/

def execVadd (a : TileAt) (f : VF) (s : State) : Host.Outcome State Fault Refusal :=
  slotCmd s a (vWord 0x01 f) fun c t => vOp c 0x01 f t

def execVsub (a : TileAt) (f : VF) (s : State) : Host.Outcome State Fault Refusal :=
  slotCmd s a (vWord 0x02 f) fun c t => vOp c 0x02 f t

def execVmul (a : TileAt) (f : VF) (s : State) : Host.Outcome State Fault Refusal :=
  slotCmd s a (vWord 0x03 f) fun c t => vOp c 0x03 f t

def execVfma (a : TileAt) (f : VF) (s : State) : Host.Outcome State Fault Refusal :=
  slotCmd s a (vWord 0x04 f) fun c t => vOp c 0x04 f t

def execVmin (a : TileAt) (f : VF) (s : State) : Host.Outcome State Fault Refusal :=
  slotCmd s a (vWord 0x05 f) fun c t => vOp c 0x05 f t

def execVmax (a : TileAt) (f : VF) (s : State) : Host.Outcome State Fault Refusal :=
  slotCmd s a (vWord 0x06 f) fun c t => vOp c 0x06 f t

def execVssub (a : TileAt) (f : VF) (s : State) : Host.Outcome State Fault Refusal :=
  slotCmd s a (vWord 0x07 f) fun c t => vOp c 0x07 f t

def execVcmplt (a : TileAt) (f : VF) (s : State) : Host.Outcome State Fault Refusal :=
  slotCmd s a (vWord 0x08 f) fun c t => vOp c 0x08 f t

def execVcmple (a : TileAt) (f : VF) (s : State) : Host.Outcome State Fault Refusal :=
  slotCmd s a (vWord 0x09 f) fun c t => vOp c 0x09 f t

def execVcmpeq (a : TileAt) (f : VF) (s : State) : Host.Outcome State Fault Refusal :=
  slotCmd s a (vWord 0x0A f) fun c t => vOp c 0x0A f t

def execVsel (a : TileAt) (f : VF) (s : State) : Host.Outcome State Fault Refusal :=
  slotCmd s a (vWord 0x0B f) fun c t => vOp c 0x0B f t

def execVcmpr (a : TileAt) (f : VF) (s : State) : Host.Outcome State Fault Refusal :=
  slotCmd s a (vWord 0x0C f) fun c t => vOp c 0x0C f t

def execVexpand (a : TileAt) (f : VF) (s : State) : Host.Outcome State Fault Refusal :=
  slotCmd s a (vWord 0x0D f) fun c t => vOp c 0x0D f t

def execVcvt (a : TileAt) (f : VF) (s : State) : Host.Outcome State Fault Refusal :=
  slotCmd s a (vWord 0x10 f) fun c t => vOp c 0x10 f t

def execVlut (a : TileAt) (f : VF) (s : State) : Host.Outcome State Fault Refusal :=
  slotCmd s a (vWord 0x14 f) fun c t => vOp c 0x14 f t

def execVluti (a : TileAt) (f : VF) (s : State) : Host.Outcome State Fault Refusal :=
  slotCmd s a (vWord 0x15 f) fun c t => vOp c 0x15 f t

def execVrmax (a : TileAt) (f : VF) (s : State) : Host.Outcome State Fault Refusal :=
  slotCmd s a (vWord 0x18 f) fun c t => vOp c 0x18 f t

def execVrsum (a : TileAt) (f : VF) (s : State) : Host.Outcome State Fault Refusal :=
  slotCmd s a (vWord 0x19 f) fun c t => vOp c 0x19 f t

def execVtwosum (a : TileAt) (f : VF) (s : State) : Host.Outcome State Fault Refusal :=
  slotCmd s a (vWord 0x1C f) fun c t => vOp c 0x1C f t

def execVtwoprod (a : TileAt) (f : VF) (s : State) : Host.Outcome State Fault Refusal :=
  slotCmd s a (vWord 0x1D f) fun c t => vOp c 0x1D f t

def execVmov (a : TileAt) (f : VF) (s : State) : Host.Outcome State Fault Refusal :=
  slotCmd s a (vWord 0x20 f) fun c t => vOp c 0x20 f t

/-- Results of the V-slot that are due are written (R86, R166). -/
def execVResultLands (a : TileAt) (s : State) : Host.Outcome State Fault Refusal :=
  slotCmd s a 0 fun c t => landFlights c (fun f => f.unit == 1) t

/-! ## M-slot -/

def execMload (a : TileAt) (f : MF) (s : State) : Host.Outcome State Fault Refusal :=
  slotCmd s a (mWord 1 f) fun c t => mOp c 1 f t

def execMmac (a : TileAt) (f : MF) (s : State) : Host.Outcome State Fault Refusal :=
  slotCmd s a (mWord 2 f) fun c t => mOp c 2 f t

def execMdrain (a : TileAt) (f : MF) (s : State) : Host.Outcome State Fault Refusal :=
  slotCmd s a (mWord 3 f) fun c t => mOp c 3 f t

def execMscale (a : TileAt) (f : MF) (s : State) : Host.Outcome State Fault Refusal :=
  slotCmd s a (mWord 4 f) fun c t => mOp c 4 f t

/-- Group results whose beat has come are formed and accumulated (R129, R130). -/
def execMmacAccumulate (a : TileAt) (s : State) : Host.Outcome State Fault Refusal :=
  slotCmd s a 0 fun c t => formOutputs c (landAccumulations c t)

/-! ## L-, T- and K-slots -/

def execLandWindow (a : TileAt) (land : BitVec 10) (s : State) : Host.Outcome State Fault Refusal :=
  slotCmd s a (lWord land.toNat) fun _ t => lWindow land t

def execVld (a : TileAt) (vd : BitVec 3) (ptr : BitVec 3) (inc : Bool) (half : BitVec 1) (land : BitVec 10) (s : State) : Host.Outcome State Fault Refusal :=
  let w := 2 ^ 18 + vd.toNat * 2 ^ 15 + ptr.toNat * 2 ^ 12 + b2n inc * 2 ^ 11 + half.toNat * 2 ^ 10 + land.toNat
  slotCmd s a (lWord w) fun c t => lVld c vd ptr inc half (lWindow land t)

def execArm (a : TileAt) (entry : BitVec 4) (ptr : BitVec 3) (length : BitVec 7) (paired inUse : Bool) (s : State) : Host.Outcome State Fault Refusal :=
  let w := 2 ^ 19 + entry.toNat * 2 ^ 12 + ptr.toNat * 2 ^ 9 + length.toNat * 2 ^ 2 + b2n paired * 2 + b2n inUse
  slotCmd s a (lWord w) fun c t => lArm c entry ptr length paired inUse t

def execRelease (a : TileAt) (entry : BitVec 4) (s : State) : Host.Outcome State Fault Refusal :=
  slotCmd s a (lWord (2 ^ 19 + 2 ^ 16 + entry.toNat * 2 ^ 12)) fun _ t => lRelease entry t

def execFlip (a : TileAt) (entry : BitVec 4) (s : State) : Host.Outcome State Fault Refusal :=
  slotCmd s a (lWord (2 ^ 19 + 2 ^ 17 + entry.toNat * 2 ^ 12)) fun c t => lFlip c entry t

def execSt (a : TileAt) (vs : BitVec 3) (ptr : BitVec 3) (inc : Bool) (half : BitVec 1) (s : State) : Host.Outcome State Fault Refusal :=
  let w := 2 ^ 12 + vs.toNat * 2 ^ 9 + ptr.toNat * 2 ^ 6 + b2n inc * 2 ^ 5 + half.toNat * 2 ^ 4
  slotCmd s a (tWord w) fun c t => tSt c vs ptr inc half t

def execDrain (a : TileAt) (ptr : BitVec 3) (inc : Bool) (stream : BitVec 4) (s : State) : Host.Outcome State Fault Refusal :=
  slotCmd s a (tWord (2 ^ 13 + ptr.toNat * 2 ^ 6 + b2n inc * 2 ^ 5 + stream.toNat)) fun c t => tDrain c ptr inc stream t

def execDrainv (a : TileAt) (vs : BitVec 3) (stream : BitVec 4) (s : State) : Host.Outcome State Fault Refusal :=
  slotCmd s a (tWord (3 * 2 ^ 12 + vs.toNat * 2 ^ 9 + stream.toNat)) fun _ t => tDrainv vs stream t

def execGate (a : TileAt) (entry : BitVec 4) (s : State) : Host.Outcome State Fault Refusal :=
  slotCmd s a (kWord (2 ^ 12 + entry.toNat * 2 ^ 8)) fun _ t => kGate entry t

def kRest (op : Nat) (f : KKnot) : Nat := op * 2 ^ 12 + b2n f.viaHandle * 2 ^ 11 + f.k.toNat * 2 ^ 8 + f.n.toNat

def execSignal (a : TileAt) (f : KKnot) (s : State) : Host.Outcome State Fault Refusal :=
  slotCmd s a (kWord (kRest 2 f)) fun c t => kOp c 1 f t

def execWait (a : TileAt) (f : KKnot) (s : State) : Host.Outcome State Fault Refusal :=
  slotCmd s a (kWord (kRest 3 f)) fun c t => kOp c 2 f t

def execTake (a : TileAt) (f : KKnot) (s : State) : Host.Outcome State Fault Refusal :=
  slotCmd s a (kWord (kRest 4 f)) fun c t => kOp c 3 f t

def execLock (a : TileAt) (f : KKnot) (s : State) : Host.Outcome State Fault Refusal :=
  slotCmd s a (kWord (kRest 5 f)) fun c t => kOp c 4 f t

def execUnlock (a : TileAt) (f : KKnot) (s : State) : Host.Outcome State Fault Refusal :=
  slotCmd s a (kWord (kRest 6 f)) fun c t => kOp c 5 f t

def execCpush (a : TileAt) (handle : BitVec 3) (ptr : BitVec 3) (inc last : Bool) (s : State) : Host.Outcome State Fault Refusal :=
  let w := 7 * 2 ^ 12 + handle.toNat * 2 ^ 9 + ptr.toNat * 2 ^ 6 + b2n inc * 2 ^ 5 + b2n last * 2 ^ 4
  slotCmd s a (kWord w) fun c t => kCpush c handle ptr inc last t

/-! ## Issue and landing -/

/-- R71, R92. A member of a hoop never receives an idle word (R107): its head drives the all-zero word. -/
def execIdleWord (a : TileAt) (body : BitVec 124) (s : State) : Host.Outcome State Fault Refusal :=
  slotCmd s a ((1 : BitVec 4) ++ body) fun c t => issueCmd 1 body.toNat c t

/-- R71, R92. -/
def execStopWord (a : TileAt) (body : BitVec 124) (s : State) : Host.Outcome State Fault Refusal :=
  slotCmd s a ((2 : BitVec 4) ++ body) fun c t => issueCmd 2 body.toNat c t

/-- R49 to R51: the oldest word that waits at the tile's lane stop enters its landing buffer, when it has room. -/
def execLaneStopTakesWord (a : TileAt) (s : State) : Host.Outcome State Fault Refusal :=
  let x := a.x.toNat
  let y := a.y.toNat
  let k := sideOfTile x y
  let l := laneOfTile y
  let ln := getLane (getSide s k) l
  let here (w : TrackWord) : Bool := waitsAtStop w && w.col.toNat == x % 256
  match ln.deliver.find? here with
  | some w =>
    if 4 ≤ (getTile s (atKey a)).land.length then .next s
    else
      let s := updSide s k (putLane l { ln with deliver := dropAt ((ln.deliver.findIdx? here).getD 0) ln.deliver })
      .next (takeWord k l w s)
  | none => .next s

end Sys2Proof.Machine
end

