-- ==== Sys2Proof/Machine/Dispatch.lean ====
section
/-! DEFINITION. The meaning of every command: one arm for each constructor of `Instr`. -/

namespace Sys2Proof.Machine

def exec (i : Instr) (s : State) : Host.Outcome State Fault Refusal :=
  match i with
  | .vauxInRange a1 => Sys2Proof.Machine.execVauxInRange a1 s
  | .resetAssert a1 => Sys2Proof.Machine.execResetAssert a1 s
  | .resetDeassert a1 => Sys2Proof.Machine.execResetDeassert a1 s
  | .railBrownOut a1 => Sys2Proof.Machine.execRailBrownOut a1 s
  | .thermalTrip => Sys2Proof.Machine.execThermalTrip s
  | .refclkLost a1 => Sys2Proof.Machine.execRefclkLost a1 s
  | .rackRefclkLost => Sys2Proof.Machine.execRackRefclkLost s
  | .rackRefclkReturn => Sys2Proof.Machine.execRackRefclkReturn s
  | .autoRestart => Sys2Proof.Machine.execAutoRestart s
  | .perstAssert => Sys2Proof.Machine.execPerstAssert s
  | .perstDeassert a1 a2 => Sys2Proof.Machine.execPerstDeassert a1 a2 s
  | .stepInEdge => Sys2Proof.Machine.execStepInEdge s
  | .stepPulse => Sys2Proof.Machine.execStepPulse s
  | .pulseLost => Sys2Proof.Machine.execPulseLost s
  | .spiGrantTimeout => Sys2Proof.Machine.execSpiGrantTimeout s
  | .jtagInstruction a1 => Sys2Proof.Machine.execJtagInstruction a1 s
  | .start a1 => Sys2Proof.Machine.execStart a1 s
  | .phaseBoundExpiry a1 => Sys2Proof.Machine.execPhaseBoundExpiry a1 s
  | .startCommandRetry a1 a2 => Sys2Proof.Machine.execStartCommandRetry a1 a2 s
  | .startCommandSkip a1 a2 => Sys2Proof.Machine.execStartCommandSkip a1 a2 s
  | .startCommandRestart a1 a2 => Sys2Proof.Machine.execStartCommandRestart a1 a2 s
  | .executingWBeat a1 => Sys2Proof.Machine.execExecutingWBeat a1 s
  | .heldWBeat a1 => Sys2Proof.Machine.execHeldWBeat a1 s
  | .idleWord a1 a2 => Sys2Proof.Machine.execIdleWord a1 a2 s
  | .stopWord a1 a2 => Sys2Proof.Machine.execStopWord a1 a2 s
  | .add a1 a2 => Sys2Proof.Machine.execAdd a1 a2 s
  | .sub a1 a2 => Sys2Proof.Machine.execSub a1 a2 s
  | .and a1 a2 => Sys2Proof.Machine.execAnd a1 a2 s
  | .or a1 a2 => Sys2Proof.Machine.execOr a1 a2 s
  | .xor a1 a2 => Sys2Proof.Machine.execXor a1 a2 s
  | .shl a1 a2 => Sys2Proof.Machine.execShl a1 a2 s
  | .shr a1 a2 => Sys2Proof.Machine.execShr a1 a2 s
  | .sra a1 a2 => Sys2Proof.Machine.execSra a1 a2 s
  | .slt a1 a2 => Sys2Proof.Machine.execSlt a1 a2 s
  | .sltu a1 a2 => Sys2Proof.Machine.execSltu a1 a2 s
  | .mul a1 a2 => Sys2Proof.Machine.execMul a1 a2 s
  | .addi a1 a2 => Sys2Proof.Machine.execAddi a1 a2 s
  | .andi a1 a2 => Sys2Proof.Machine.execAndi a1 a2 s
  | .ori a1 a2 => Sys2Proof.Machine.execOri a1 a2 s
  | .li a1 a2 a3 => Sys2Proof.Machine.execLi a1 a2 a3 s
  | .lui a1 a2 a3 => Sys2Proof.Machine.execLui a1 a2 a3 s
  | .sld a1 a2 => Sys2Proof.Machine.execSld a1 a2 s
  | .sst a1 a2 => Sys2Proof.Machine.execSst a1 a2 s
  | .sldp a1 a2 => Sys2Proof.Machine.execSldp a1 a2 s
  | .sstp a1 a2 => Sys2Proof.Machine.execSstp a1 a2 s
  | .setp a1 a2 a3 a4 => Sys2Proof.Machine.execSetp a1 a2 a3 a4 s
  | .setps a1 a2 a3 => Sys2Proof.Machine.execSetps a1 a2 a3 s
  | .setpr a1 a2 a3 => Sys2Proof.Machine.execSetpr a1 a2 a3 s
  | .getp a1 a2 a3 => Sys2Proof.Machine.execGetp a1 a2 a3 s
  | .jmp a1 a2 => Sys2Proof.Machine.execJmp a1 a2 s
  | .bz a1 a2 a3 => Sys2Proof.Machine.execBz a1 a2 a3 s
  | .bnz a1 a2 a3 => Sys2Proof.Machine.execBnz a1 a2 a3 s
  | .jr a1 a2 => Sys2Proof.Machine.execJr a1 a2 s
  | .swap a1 a2 => Sys2Proof.Machine.execSwap a1 a2 s
  | .loop a1 a2 => Sys2Proof.Machine.execLoop a1 a2 s
  | .mode a1 a2 => Sys2Proof.Machine.execMode a1 a2 s
  | .moder a1 a2 => Sys2Proof.Machine.execModer a1 a2 s
  | .modeTakesEffect a1 => Sys2Proof.Machine.execModeTakesEffect a1 s
  | .push a1 a2 a3 a4 => Sys2Proof.Machine.execPush a1 a2 a3 a4 s
  | .hoop a1 a2 => Sys2Proof.Machine.execHoop a1 a2 s
  | .rdsb a1 a2 => Sys2Proof.Machine.execRdsb a1 a2 s
  | .vadd a1 a2 => Sys2Proof.Machine.execVadd a1 a2 s
  | .vsub a1 a2 => Sys2Proof.Machine.execVsub a1 a2 s
  | .vmul a1 a2 => Sys2Proof.Machine.execVmul a1 a2 s
  | .vfma a1 a2 => Sys2Proof.Machine.execVfma a1 a2 s
  | .vmin a1 a2 => Sys2Proof.Machine.execVmin a1 a2 s
  | .vmax a1 a2 => Sys2Proof.Machine.execVmax a1 a2 s
  | .vssub a1 a2 => Sys2Proof.Machine.execVssub a1 a2 s
  | .vcmplt a1 a2 => Sys2Proof.Machine.execVcmplt a1 a2 s
  | .vcmple a1 a2 => Sys2Proof.Machine.execVcmple a1 a2 s
  | .vcmpeq a1 a2 => Sys2Proof.Machine.execVcmpeq a1 a2 s
  | .vsel a1 a2 => Sys2Proof.Machine.execVsel a1 a2 s
  | .vcmpr a1 a2 => Sys2Proof.Machine.execVcmpr a1 a2 s
  | .vexpand a1 a2 => Sys2Proof.Machine.execVexpand a1 a2 s
  | .vcvt a1 a2 => Sys2Proof.Machine.execVcvt a1 a2 s
  | .vlut a1 a2 => Sys2Proof.Machine.execVlut a1 a2 s
  | .vluti a1 a2 => Sys2Proof.Machine.execVluti a1 a2 s
  | .vrmax a1 a2 => Sys2Proof.Machine.execVrmax a1 a2 s
  | .vrsum a1 a2 => Sys2Proof.Machine.execVrsum a1 a2 s
  | .vtwosum a1 a2 => Sys2Proof.Machine.execVtwosum a1 a2 s
  | .vtwoprod a1 a2 => Sys2Proof.Machine.execVtwoprod a1 a2 s
  | .vmov a1 a2 => Sys2Proof.Machine.execVmov a1 a2 s
  | .vResultLands a1 => Sys2Proof.Machine.execVResultLands a1 s
  | .mload a1 a2 => Sys2Proof.Machine.execMload a1 a2 s
  | .mmac a1 a2 => Sys2Proof.Machine.execMmac a1 a2 s
  | .mmacAccumulate a1 => Sys2Proof.Machine.execMmacAccumulate a1 s
  | .mdrain a1 a2 => Sys2Proof.Machine.execMdrain a1 a2 s
  | .mscale a1 a2 => Sys2Proof.Machine.execMscale a1 a2 s
  | .landWindow a1 a2 => Sys2Proof.Machine.execLandWindow a1 a2 s
  | .vld a1 a2 a3 a4 a5 a6 => Sys2Proof.Machine.execVld a1 a2 a3 a4 a5 a6 s
  | .arm a1 a2 a3 a4 a5 a6 => Sys2Proof.Machine.execArm a1 a2 a3 a4 a5 a6 s
  | .release a1 a2 => Sys2Proof.Machine.execRelease a1 a2 s
  | .flip a1 a2 => Sys2Proof.Machine.execFlip a1 a2 s
  | .st a1 a2 a3 a4 a5 => Sys2Proof.Machine.execSt a1 a2 a3 a4 a5 s
  | .drain a1 a2 a3 a4 => Sys2Proof.Machine.execDrain a1 a2 a3 a4 s
  | .drainv a1 a2 a3 => Sys2Proof.Machine.execDrainv a1 a2 a3 s
  | .gate a1 a2 => Sys2Proof.Machine.execGate a1 a2 s
  | .signal a1 a2 => Sys2Proof.Machine.execSignal a1 a2 s
  | .wait a1 a2 => Sys2Proof.Machine.execWait a1 a2 s
  | .take a1 a2 => Sys2Proof.Machine.execTake a1 a2 s
  | .lock a1 a2 => Sys2Proof.Machine.execLock a1 a2 s
  | .unlock a1 a2 => Sys2Proof.Machine.execUnlock a1 a2 s
  | .cpush a1 a2 a3 a4 a5 => Sys2Proof.Machine.execCpush a1 a2 a3 a4 a5 s
  | .laneStopTakesWord a1 => Sys2Proof.Machine.execLaneStopTakesWord a1 s
  | .haltFreeze a1 => Sys2Proof.Machine.execHaltFreeze a1 s
  | .holdTimeout a1 => Sys2Proof.Machine.execHoldTimeout a1 s
  | .tileWindowRead a1 a2 a3 a4 => Sys2Proof.Machine.execTileWindowRead a1 a2 a3 a4 s
  | .tileWindowReadTimeout a1 => Sys2Proof.Machine.execTileWindowReadTimeout a1 s
  | .tileWindowWrite a1 a2 a3 a4 => Sys2Proof.Machine.execTileWindowWrite a1 a2 a3 a4 s
  | .triggerWrite a1 a2 a3 a4 => Sys2Proof.Machine.execTriggerWrite a1 a2 a3 a4 s
  | .sideAcceptDescriptor a1 a2 => Sys2Proof.Machine.execSideAcceptDescriptor a1 a2 s
  | .hbmAccessComplete a1 a2 a3 a4 => Sys2Proof.Machine.execHbmAccessComplete a1 a2 a3 a4 s
  | .hbmRefresh a1 a2 a3 => Sys2Proof.Machine.execHbmRefresh a1 a2 a3 s
  | .drainWordArrives a1 a2 a3 => Sys2Proof.Machine.execDrainWordArrives a1 a2 a3 s
  | .descriptorComplete a1 a2 a3 => Sys2Proof.Machine.execDescriptorComplete a1 a2 a3 s
  | .cqHeadWrite a1 a2 a3 a4 => Sys2Proof.Machine.execCqHeadWrite a1 a2 a3 a4 s
  | .lightPathComplete a1 a2 a3 a4 => Sys2Proof.Machine.execLightPathComplete a1 a2 a3 a4 s
  | .shuttleLoad a1 => Sys2Proof.Machine.execShuttleLoad a1 s
  | .shuttleStore a1 => Sys2Proof.Machine.execShuttleStore a1 s
  | .shuttleAtomic a1 a2 a3 a4 a5 a6 a7 => Sys2Proof.Machine.execShuttleAtomic a1 a2 a3 a4 a5 a6 a7 s
  | .instructionFetchMiss a1 a2 => Sys2Proof.Machine.execInstructionFetchMiss a1 a2 s
  | .fence a1 a2 => Sys2Proof.Machine.execFence a1 a2 s
  | .requestCompletion a1 a2 a3 => Sys2Proof.Machine.execRequestCompletion a1 a2 a3 s
  | .threadQuantumExpiry a1 => Sys2Proof.Machine.execThreadQuantumExpiry a1 s
  | .shuttleException a1 a2 a3 a4 a5 => Sys2Proof.Machine.execShuttleException a1 a2 a3 a4 a5 s
  | .shuttleMachineException a1 a2 a3 => Sys2Proof.Machine.execShuttleMachineException a1 a2 a3 s
  | .shYield a1 => Sys2Proof.Machine.execShYield a1 s
  | .shGet a1 => Sys2Proof.Machine.execShGet a1 s
  | .shPut a1 => Sys2Proof.Machine.execShPut a1 s
  | .shWtag a1 => Sys2Proof.Machine.execShWtag a1 s
  | .shPtag a1 => Sys2Proof.Machine.execShPtag a1 s
  | .shDesc a1 => Sys2Proof.Machine.execShDesc a1 s
  | .shKsig a1 => Sys2Proof.Machine.execShKsig a1 s
  | .shKwait a1 => Sys2Proof.Machine.execShKwait a1 s
  | .shKwaitg a1 => Sys2Proof.Machine.execShKwaitg a1 s
  | .shKtake a1 => Sys2Proof.Machine.execShKtake a1 s
  | .shKlock a1 => Sys2Proof.Machine.execShKlock a1 s
  | .shKunlock a1 => Sys2Proof.Machine.execShKunlock a1 s
  | .shKread a1 => Sys2Proof.Machine.execShKread a1 s
  | .shKinit a1 => Sys2Proof.Machine.execShKinit a1 s
  | .shChopen a1 => Sys2Proof.Machine.execShChopen a1 s
  | .shChsend a1 => Sys2Proof.Machine.execShChsend a1 s
  | .shChack a1 => Sys2Proof.Machine.execShChack a1 s
  | .shChpoll a1 => Sys2Proof.Machine.execShChpoll a1 s
  | .shChclose a1 => Sys2Proof.Machine.execShChclose a1 s
  | .shCqopen a1 => Sys2Proof.Machine.execShCqopen a1 s
  | .shCqadd a1 => Sys2Proof.Machine.execShCqadd a1 s
  | .shCqclose a1 => Sys2Proof.Machine.execShCqclose a1 s
  | .knotOperationApplied a1 => Sys2Proof.Machine.execKnotOperationApplied a1 s
  | .knotReply a1 => Sys2Proof.Machine.execKnotReply a1 s
  | .knotRetry a1 => Sys2Proof.Machine.execKnotRetry a1 s
  | .forwarderMessage a1 a2 => Sys2Proof.Machine.execForwarderMessage a1 a2 s
  | .forwarderRetry a1 a2 => Sys2Proof.Machine.execForwarderRetry a1 a2 s
  | .channelMessageArrival a1 => Sys2Proof.Machine.execChannelMessageArrival a1 s
  | .cqContributionArrival a1 => Sys2Proof.Machine.execCqContributionArrival a1 s
  | .cqMessageWritten a1 a2 => Sys2Proof.Machine.execCqMessageWritten a1 a2 s
  | .patternLoad a1 a2 a3 => Sys2Proof.Machine.execPatternLoad a1 a2 a3 s
  | .patternUnload a1 a2 => Sys2Proof.Machine.execPatternUnload a1 a2 s
  | .regionUngate a1 => Sys2Proof.Machine.execRegionUngate a1 s
  | .stepStart a1 a2 => Sys2Proof.Machine.execStepStart a1 a2 s
  | .stepStop a1 a2 => Sys2Proof.Machine.execStepStop a1 a2 s
  | .stepAbortCommand a1 a2 => Sys2Proof.Machine.execStepAbortCommand a1 a2 s
  | .checkpointCommand a1 a2 => Sys2Proof.Machine.execCheckpointCommand a1 a2 s
  | .preEmpt a1 a2 => Sys2Proof.Machine.execPreEmpt a1 a2 s
  | .resume a1 a2 => Sys2Proof.Machine.execResume a1 a2 s
  | .restoreCheckpoint a1 a2 => Sys2Proof.Machine.execRestoreCheckpoint a1 a2 s
  | .stepBoundary a1 => Sys2Proof.Machine.execStepBoundary a1 s
  | .stepAbort a1 a2 => Sys2Proof.Machine.execStepAbort a1 a2 s
  | .stepTimeout a1 => Sys2Proof.Machine.execStepTimeout a1 s
  | .laneMapWrite a1 a2 => Sys2Proof.Machine.execLaneMapWrite a1 a2 s
  | .portModeWrite a1 a2 a3 => Sys2Proof.Machine.execPortModeWrite a1 a2 a3 s
  | .packetReceive a1 a2 a3 => Sys2Proof.Machine.execPacketReceive a1 a2 a3 s
  | .linkRetryRequest a1 a2 => Sys2Proof.Machine.execLinkRetryRequest a1 a2 s
  | .linkAck a1 a2 => Sys2Proof.Machine.execLinkAck a1 a2 s
  | .creditGrant a1 a2 => Sys2Proof.Machine.execCreditGrant a1 a2 s
  | .lossOfSignal a1 => Sys2Proof.Machine.execLossOfSignal a1 s
  | .packetDeparture a1 => Sys2Proof.Machine.execPacketDeparture a1 s
  | .e2eAck a1 a2 a3 a4 => Sys2Proof.Machine.execE2eAck a1 a2 a3 a4 s
  | .nak a1 a2 a3 a4 a5 a6 => Sys2Proof.Machine.execNak a1 a2 a3 a4 a5 a6 s
  | .nakRetransmit a1 a2 a3 => Sys2Proof.Machine.execNakRetransmit a1 a2 a3 s
  | .e2eTimeout a1 a2 a3 => Sys2Proof.Machine.execE2eTimeout a1 a2 a3 s
  | .flowEntryExpiry a1 a2 a3 => Sys2Proof.Machine.execFlowEntryExpiry a1 a2 a3 s
  | .peerUnreachable a1 a2 => Sys2Proof.Machine.execPeerUnreachable a1 a2 s
  | .routeTableWrite a1 a2 a3 a4 => Sys2Proof.Machine.execRouteTableWrite a1 a2 a3 a4 s
  | .unreachableChipsWrite a1 a2 a3 => Sys2Proof.Machine.execUnreachableChipsWrite a1 a2 a3 s
  | .serviceStepAbort a1 a2 a3 => Sys2Proof.Machine.execServiceStepAbort a1 a2 a3 s
  | .serviceCountExchange a1 a2 a3 a4 => Sys2Proof.Machine.execServiceCountExchange a1 a2 a3 a4 s
  | .serviceBarrier a1 a2 a3 => Sys2Proof.Machine.execServiceBarrier a1 a2 a3 s
  | .timeSyncExchange a1 a2 a3 a4 => Sys2Proof.Machine.execTimeSyncExchange a1 a2 a3 a4 s
  | .spoolRequest a1 a2 a3 a4 a5 a6 a7 => Sys2Proof.Machine.execSpoolRequest a1 a2 a3 a4 a5 a6 a7 s
  | .spoolDataFrame a1 a2 a3 a4 a5 => Sys2Proof.Machine.execSpoolDataFrame a1 a2 a3 a4 a5 s
  | .spoolErrorFrame a1 a2 a3 => Sys2Proof.Machine.execSpoolErrorFrame a1 a2 a3 s
  | .spoolRetryTimeout a1 a2 => Sys2Proof.Machine.execSpoolRetryTimeout a1 a2 s
  | .spoolStatusRead a1 a2 a3 => Sys2Proof.Machine.execSpoolStatusRead a1 a2 a3 s
  | .neighborSolicitation a1 a2 a3 => Sys2Proof.Machine.execNeighborSolicitation a1 a2 a3 s
  | .echoRequest a1 a2 a3 a4 => Sys2Proof.Machine.execEchoRequest a1 a2 a3 a4 s
  | .laceLoad a1 a2 => Sys2Proof.Machine.execLaceLoad a1 a2 s
  | .laceEmpty a1 a2 => Sys2Proof.Machine.execLaceEmpty a1 a2 s
  | .laceCapture a1 a2 => Sys2Proof.Machine.execLaceCapture a1 a2 s
  | .fabricTick a1 => Sys2Proof.Machine.execFabricTick a1 s
  | .laceworkReadback a1 a2 a3 => Sys2Proof.Machine.execLaceworkReadback a1 a2 a3 s
  | .changePoint a1 => Sys2Proof.Machine.execChangePoint a1 s
  | .beatSwitch a1 => Sys2Proof.Machine.execBeatSwitch a1 s
  | .monitorReport a1 a2 a3 => Sys2Proof.Machine.execMonitorReport a1 a2 a3 s
  | .powerSample a1 => Sys2Proof.Machine.execPowerSample a1 s
  | .powerProtectClear a1 => Sys2Proof.Machine.execPowerProtectClear a1 s
  | .powerLimitWrite a1 a2 a3 => Sys2Proof.Machine.execPowerLimitWrite a1 a2 a3 s
  | .configCommit a1 => Sys2Proof.Machine.execConfigCommit a1 s
  | .configDiscard a1 => Sys2Proof.Machine.execConfigDiscard a1 s
  | .saveMoveComplete a1 => Sys2Proof.Machine.execSaveMoveComplete a1 s
  | .hostWindowAccess a1 a2 a3 a4 a5 => Sys2Proof.Machine.execHostWindowAccess a1 a2 a3 a4 a5 s
  | .installerKeyWrite a1 a2 => Sys2Proof.Machine.execInstallerKeyWrite a1 a2 s
  | .makerGrantWrite a1 a2 => Sys2Proof.Machine.execMakerGrantWrite a1 a2 s
  | .grantExpiry => Sys2Proof.Machine.execGrantExpiry s
  | .approvedModeEnter a1 => Sys2Proof.Machine.execApprovedModeEnter a1 s
  | .approvedModeLeave a1 => Sys2Proof.Machine.execApprovedModeLeave a1 s
  | .zeroise a1 => Sys2Proof.Machine.execZeroise a1 s
  | .moduleError => Sys2Proof.Machine.execModuleError s
  | .caerecServiceSlot => Sys2Proof.Machine.execCaerecServiceSlot s
  | .attestNonceWrite a1 a2 => Sys2Proof.Machine.execAttestNonceWrite a1 a2 s
  | .attestReportRead a1 => Sys2Proof.Machine.execAttestReportRead a1 s
  | .auditExportedToWrite a1 a2 => Sys2Proof.Machine.execAuditExportedToWrite a1 a2 s
  | .auditAnchorRequest a1 => Sys2Proof.Machine.execAuditAnchorRequest a1 s
  | .firmwareVerify a1 => Sys2Proof.Machine.execFirmwareVerify a1 s
  | .firmwareMarkActive a1 => Sys2Proof.Machine.execFirmwareMarkActive a1 s
  | .firmwareCancel a1 => Sys2Proof.Machine.execFirmwareCancel a1 s
  | .dxpRead a1 a2 => Sys2Proof.Machine.execDxpRead a1 a2 s
  | .dxpWrite a1 a2 => Sys2Proof.Machine.execDxpWrite a1 a2 s
  | .dxpSegmentRead a1 a2 => Sys2Proof.Machine.execDxpSegmentRead a1 a2 s
  | .dxpWriteInitiate a1 a2 => Sys2Proof.Machine.execDxpWriteInitiate a1 a2 s
  | .dxpSegmentWrite a1 a2 => Sys2Proof.Machine.execDxpSegmentWrite a1 a2 s
  | .dxpDescribe a1 a2 => Sys2Proof.Machine.execDxpDescribe a1 a2 s
  | .dxpCancel a1 a2 => Sys2Proof.Machine.execDxpCancel a1 a2 s
  | .dxpTransferTimeout a1 => Sys2Proof.Machine.execDxpTransferTimeout a1 s
  | .i3cRequest a1 a2 a3 a4 => Sys2Proof.Machine.execI3cRequest a1 a2 a3 a4 s
  | .mbDoorbell a1 a2 => Sys2Proof.Machine.execMbDoorbell a1 a2 s
  | .mgmtEchoRequest a1 a2 a3 => Sys2Proof.Machine.execMgmtEchoRequest a1 a2 a3 s
  | .mgmtAddressResolution a1 a2 => Sys2Proof.Machine.execMgmtAddressResolution a1 a2 s
  | .registerWrite a1 a2 a3 => Sys2Proof.Machine.execRegisterWrite a1 a2 a3 s
  | .eventControllerClock => Sys2Proof.Machine.execEventControllerClock s
  | .eventRecordWrite => Sys2Proof.Machine.execEventRecordWrite s
  | .enableSet a1 a2 => Sys2Proof.Machine.execEnableSet a1 a2 s
  | .enableClear a1 a2 => Sys2Proof.Machine.execEnableClear a1 a2 s
  | .pendingSet a1 a2 => Sys2Proof.Machine.execPendingSet a1 a2 s
  | .pendingClear a1 a2 => Sys2Proof.Machine.execPendingClear a1 a2 s
  | .complete a1 a2 => Sys2Proof.Machine.execComplete a1 a2 s
  | .holdoffWrite a1 a2 => Sys2Proof.Machine.execHoldoffWrite a1 a2 s
  | .ringCfgWrite a1 a2 => Sys2Proof.Machine.execRingCfgWrite a1 a2 s
  | .ringBaseWrite a1 a2 => Sys2Proof.Machine.execRingBaseWrite a1 a2 s
  | .ringHeadWrite a1 a2 => Sys2Proof.Machine.execRingHeadWrite a1 a2 s
  | .readbackDataRead a1 a2 a3 a4 a5 => Sys2Proof.Machine.execReadbackDataRead a1 a2 a3 a4 a5 s
  | .readbackDataWrite a1 a2 a3 a4 => Sys2Proof.Machine.execReadbackDataWrite a1 a2 a3 a4 s
  | .holdNow a1 a2 => Sys2Proof.Machine.execHoldNow a1 a2 s
  | .holdAtSBeat a1 a2 => Sys2Proof.Machine.execHoldAtSBeat a1 a2 s
  | .debugFreeze a1 => Sys2Proof.Machine.execDebugFreeze a1 s
  | .debugRelease a1 a2 => Sys2Proof.Machine.execDebugRelease a1 a2 s
  | .debugStep a1 a2 => Sys2Proof.Machine.execDebugStep a1 a2 s
  | .snapshot a1 a2 => Sys2Proof.Machine.execSnapshot a1 a2 s
  | .snapshotDone a1 => Sys2Proof.Machine.execSnapshotDone a1 s
  | .knotSet a1 a2 a3 a4 => Sys2Proof.Machine.execKnotSet a1 a2 a3 a4 s
  | .recordArm a1 a2 => Sys2Proof.Machine.execRecordArm a1 a2 s
  | .recordEnd a1 a2 => Sys2Proof.Machine.execRecordEnd a1 a2 s
  | .replayStart a1 a2 => Sys2Proof.Machine.execReplayStart a1 a2 s
  | .replayAbandon a1 a2 => Sys2Proof.Machine.execReplayAbandon a1 a2 s
  | .recordDataWrite a1 a2 a3 => Sys2Proof.Machine.execRecordDataWrite a1 a2 a3 s
  | .replayStampedInput a1 => Sys2Proof.Machine.execReplayStampedInput a1 s
  | .replayStall a1 => Sys2Proof.Machine.execReplayStall a1 s
  | .hbmScrub a1 a2 a3 => Sys2Proof.Machine.execHbmScrub a1 a2 a3 s
  | .hbmRetraining a1 a2 a3 => Sys2Proof.Machine.execHbmRetraining a1 a2 a3 s
  | .portRetraining a1 a2 => Sys2Proof.Machine.execPortRetraining a1 a2 s
  | .tileMemorySelfTest a1 a2 => Sys2Proof.Machine.execTileMemorySelfTest a1 a2 s
  | .maintScheduleFire a1 => Sys2Proof.Machine.execMaintScheduleFire a1 s
  | .maintActivityEnd a1 a2 a3 a4 => Sys2Proof.Machine.execMaintActivityEnd a1 a2 a3 a4 s
  | .vauxLost => Sys2Proof.Machine.execVauxLost s
  | .regionGate a1 => Sys2Proof.Machine.execRegionGate a1 s
  | .spiGrant => Sys2Proof.Machine.execSpiGrant s
  | .linkAcknowledgementTimer a1 => Sys2Proof.Machine.execLinkAcknowledgementTimer a1 s
  | .e2eAcknowledgementTimer a1 a2 a3 => Sys2Proof.Machine.execE2eAcknowledgementTimer a1 a2 a3 s
  | .pauseFrame a1 a2 => Sys2Proof.Machine.execPauseFrame a1 a2 s
  | .mgmtFrameDiscard => Sys2Proof.Machine.execMgmtFrameDiscard s
  | .mgmtLinkChange a1 => Sys2Proof.Machine.execMgmtLinkChange a1 s
  | .dynamicAddressAssignment a1 => Sys2Proof.Machine.execDynamicAddressAssignment a1 s

end Sys2Proof.Machine
end

