-- ==== Sys2Proof/Certificates/Slice0/Obligations.lean ====
section
/-! DEFINITION. The statements for the provers. -/

namespace Sys2Proof.Stmt
open Sys2Proof.Machine

/-! ## A command and its next state -/

/-- Command `c` answers the next state `t`. -/
def Runs (c : Instr) (s t : State) : Prop := exec c s = .next t

/-! ## Words of the statements about tiles -/

def tile (s : State) (a : TileAt) : Tile := getTile s (atKey a)

/-- The S-beat that tile `a` executes (R206). -/
def beatNo (s : State) (a : TileAt) : Nat := (getPart s (ownerOfAt s a)).hold.sBeat

def ctx (s : State) (a : TileAt) : BeatCtx := ctxOf s (ownerOfAt s a) a.x.toNat a.y.toNat

/-- The command's next state is `s` with tile `a` become `f` of itself in its beat; nothing else of the state changes, other tiles
included. What a beat notes of the word it executes (`inBeat`) is the only other change. -/
def OnlyTile (c : Instr) (s : State) (a : TileAt) (f : Tile → Tile) : Prop :=
  ∃ w : W128, Runs c s (putTile s (atKey a) (f (inBeat w (tile s a))))

/-- A result for scalar register `rd` that lands `lat` beats later is added to what is in flight; a result for s0 is discarded. -/
def withScalar (now lat : Nat) (rd : BitVec 4) (v : W32) (poison : Bool) (t : Tile) : Tile :=
  if rd = 0 then t
  else { t with flights := t.flights ++ [
    { unit := 0, target := .scalar, reg := rd, exec := now, due := now + lat, value := v.setWidth 128,
      bits := 0xFFFFFFFF, part := false, pair := false, aux := 0, op := 0, ty := 0, poison := poison, sat := 0, nan := 0 }] }

/-- The scalar operations on two registers, each with its function and its latency (Tables 3-4 and 3-11). -/
def scalarRows : List ((TileAt → SRR → Instr) × (W32 → W32 → W32) × Nat) :=
  [(.add, fun x y => x + y, 1), (.sub, fun x y => x - y, 1), (.and, fun x y => x &&& y, 1), (.or, fun x y => x ||| y, 1),
   (.xor, fun x y => x ^^^ y, 1), (.shl, fun x y => x <<< (y &&& 31).toNat, 1), (.shr, fun x y => x >>> (y &&& 31).toNat, 1),
   (.sra, fun x y => x.sshiftRight (y &&& 31).toNat, 1), (.slt, fun x y => if x.toInt < y.toInt then 1 else 0, 1),
   (.sltu, fun x y => if x.toNat < y.toNat then 1 else 0, 1), (.mul, fun x y => BitVec.ofNat 32 (x.toNat * y.toNat), 2)]

/-- The pointer access of a slot is made and raises nothing: a bank that exists, is not the active half, was not accessed in this
beat, and whose word no armed entry that is not valid covers (R39, R46, R75, R76). -/
def CleanAccess (t : Tile) (bank : BitVec 4) (word : BitVec 7) : Prop :=
  bank.toNat < 10 ∧ bank ≠ activeBank t ∧ (∀ x ∈ t.beat.acc, x.bank ≠ bank) ∧ ungatedEntry t bank word.toNat 1 = none

/-- The 32 bits of half `h` of a word. -/
def half32 (h : BitVec 1) (w : W64) : W32 := if h = 0 then w.extractLsb' 0 32 else w.extractLsb' 32 32

def noteAccess (slot : BitVec 3) (now : Nat) (bank : BitVec 4) (t : Tile) : Tile :=
  { t with beat := { t.beat with acc := t.beat.acc ++ [⟨bank, slot, now⟩] } }

def noteInc (inc : Bool) (r : BitVec 3) (t : Tile) : Tile :=
  if inc then { t with beat := { t.beat with ptrOps := t.beat.ptrOps ++ [⟨r, none⟩] } } else t

def noteSet (r : BitVec 3) (p : Ptr) (t : Tile) : Tile :=
  { t with beat := { t.beat with ptrOps := t.beat.ptrOps ++ [⟨r, some p⟩] } }

/-- A tile executes a control operation: it is its hoop's head and the word is not in a delay slot (R73, R92). -/
def Controls (t : Tile) : Prop := tileIsHead t = true ∧ (t.issue.delayLeft = 0 ∨ t.beat.branch = true)

/-- No active loop ends at the word in progress or within the two words after it (R98). -/
def FarFromLoopEnd (t : Tile) : Prop :=
  ∀ l ∈ [t.issue.loop0, t.issue.loop1], l.active = true →
    l.stop.toNat < t.issue.curAddr.toNat % 64 ∨ t.issue.curAddr.toNat % 64 + 2 < l.stop.toNat

/-- A branch with two delay slots to come (R91). -/
def branching (taken swap : Bool) (target : BitVec 6) (t : Tile) : Tile :=
  { t with
    issue := { t.issue with delayLeft := 2, brTaken := taken, brTarget := target, brSwap := swap, brAddr := t.issue.curAddr }
    beat := { t.beat with branched := taken, branch := true } }

/-! ## Words of the statements about the other slots -/

/-- What a slot operation may change besides its results in flight, its tile's numeric state, and what the tile notes of its beat:
its tile's fault record, and with it the hold of the partition, which a fault halts. All else is as it was. -/
def SlotFrame (s t : State) (a : TileAt) : Prop :=
  let u := tile s a
  let v := tile t a
  v.banks = u.banks ∧ v.board = u.board ∧ v.land = u.land ∧ v.knots = u.knots ∧ v.s = u.s ∧ v.p = u.p ∧ v.v = u.v ∧ v.m = u.m ∧ v.h = u.h
  ∧ v.issue = u.issue ∧ v.mode = u.mode ∧ v.push = u.push ∧ v.hoop = u.hoop ∧ v.drain = u.drain ∧ v.outQ = u.outQ ∧ v.openMsg = u.openMsg
  ∧ v.hold = u.hold
  ∧ (∀ k, k ≠ atKey a → getTile t k = getTile s k)
  ∧ (∀ q, q ≠ ownerOfAt s a → getPart t q = getPart s q)
  ∧ (∃ h, getPart t (ownerOfAt s a) = { getPart s (ownerOfAt s a) with hold := h })
  ∧ t.sides = s.sides ∧ t.laces = s.laces ∧ t.hbm = s.hbm ∧ t.hbmDies = s.hbmDies ∧ t.quadCounts = s.quadCounts ∧ t.shuttles = s.shuttles
  ∧ t.net = s.net ∧ t.sec = s.sec ∧ t.links = s.links ∧ t.routes = s.routes ∧ t.pack = s.pack ∧ t.fuses = s.fuses ∧ t.pending = s.pending
  ∧ t.nowNs = s.nowNs ∧ t.rackNs = s.rackNs ∧ t.reply = s.reply ∧ t.freeCount = s.freeCount
  ∧ (v.num.rescale = u.num.rescale → t.events = s.events)

/-- The operands a, b and c of a V-slot as the word reads them (R79, R80, R168). -/
def vRead (s : State) (a : TileAt) (op : Nat) (f : VF) : Pz 128 × Pz 128 × Pz 128 :=
  let c := ctx s a
  let r1 := vOperand c f.a [] (inBeat (vWord op f) (tile s a))
  let r2 := if vReadsB op then vOperand c f.b r1.2.2 r1.1 else (r1.1, {}, r1.2.2)
  let r3 := if op = 4 then vOperand c f.c r2.2.2 r2.1 else (r2.1, {}, r2.2.2)
  (r1.2.1, r2.2.1, r3.2.1)

/-- The increments that a V-slot's pointer operands make (R79). -/
def vIncsOf (op : Nat) (f : VF) : List PtrOp :=
  if f.inc then (([f.a] ++ (if vReadsB op then [f.b] else []) ++ (if op = 4 then [f.c] else [])).filterMap vPointer).map fun r => ⟨r, none⟩
  else []

/-- A result of the V-slot in flight. -/
def vFlight (now lat op : Nat) (ty : BitVec 3) (target : Target) (reg : BitVec 4) (value mask aux : W128) (part pair poison : Bool) : Flight :=
  { unit := 1, target := target, reg := reg, exec := now, due := now + lat, value := value, bits := mask, part := part, pair := pair,
    aux := aux, op := BitVec.ofNat 7 op, ty := ty, poison := poison, sat := 0, nan := 0 }

def ones128 : W128 := 0xFFFFFFFFFFFFFFFFFFFFFFFFFFFFFFFF

/-- A V-slot operation adds `fl` to what is in flight, makes its pointer increments, and leaves its tile's numeric state as `num`. -/
def VAdds (c : Instr) (s : State) (a : TileAt) (op : Nat) (f : VF) (num : NumState → NumState) (fl : Flight) : Prop :=
  ∃ t, Runs c s t ∧ SlotFrame s t a ∧ (tile t a).arr = (tile s a).arr ∧ (tile t a).num = num (tile s a).num
    ∧ (tile t a).flights = (tile s a).flights ++ [fl] ∧ (tile t a).beat.ptrOps = (tile s a).beat.ptrOps ++ vIncsOf op f

/-- The packing cursor of register `vd` is 0 after a full write (R149). -/
def cursorClear (vd : BitVec 3) (n : NumState) : NumState := { n with cursors := sPut 0 vd.toNat 0 n.cursors }

/-- The lanewise operations: constructor, opcode, latency for BF16 and for other types, and the lane's result (R147, R170, R171). -/
def laneRows : List ((TileAt → VF → Instr) × Nat × Nat × Nat × (BitVec 3 → Nat → Nat → Nat → Nat)) :=
  [(.vadd, 1, 4, 5, fun ty a b _ => roundLane ty (addNum (decodeLane ty a) (decodeLane ty b))),
   (.vsub, 2, 4, 5, fun ty a b _ => roundLane ty (addNum (decodeLane ty a) (negNum (decodeLane ty b)))),
   (.vmul, 3, 4, 5, fun ty a b _ => roundLane ty (mulNum (decodeLane ty a) (decodeLane ty b))),
   (.vfma, 4, 4, 5, fun ty a b c => roundLane ty (addNum (mulNum (decodeLane ty a) (decodeLane ty b)) (decodeLane ty c))),
   (.vmin, 5, 2, 2, fun ty a b _ => minMaxLane ty false a b),
   (.vmax, 6, 2, 2, fun ty a b _ => minMaxLane ty true a b),
   (.vssub, 7, 4, 5, fun ty a b _ =>
     if (∃ n, decodeLane ty a = .inf n) ∧ decodeLane ty a = decodeLane ty b then 0
     else roundLane ty (addNum (decodeLane ty a) (negNum (decodeLane ty b))))]

/-- The comparisons, with the relation of two lanes. -/
def compareRows : List ((TileAt → VF → Instr) × Nat × (FpNum → FpNum → Bool)) :=
  [(.vcmplt, 8, numLt), (.vcmple, 9, fun x y => numLt x y || numEq x y), (.vcmpeq, 10, numEq)]

/-- The word that an M-slot reads through pointer `r`: of a row its bits [63:0]; zero where the access is not made (R75, R76, R81). -/
def mOperand (t : Tile) (r : BitVec 3) : Pz 64 :=
  let p := getP t r
  if p.bank.toNat < 10 ∧ p.bank ≠ activeBank t then
    getWord t p.bank (if 6 ≤ p.bank.toNat then BitVec.ofNat 7 (p.word.toNat / 2 * 2) else p.word)
  else {}

/-- The P-mem row that `pp` names is accessed and nothing is raised. -/
def CleanRow (t : Tile) (r : BitVec 3) : Prop :=
  let p := getP t r
  (p.bank = 6 ∨ p.bank = 7) ∧ (∀ x ∈ t.beat.acc, x.bank ≠ p.bank)

/-- The tile's state but for its matrix array, its pointers' pending increments and the word outputs of its beat. -/
def MatrixFrame (s t : State) (a : TileAt) : Prop :=
  SlotFrame s t a ∧ (tile t a).flights = (tile s a).flights

/-- A knot of the tile becomes `k`, and nothing else changes. -/
def setLocalKnot (n : BitVec 3) (k : Knot) (t : Tile) : Tile := { t with knots := sPut {} n.toNat k t.knots }

def noteWait (op : BitVec 3) (f : KKnot) (t : Tile) : Tile :=
  { t with hold := { t.hold with waits := t.hold.waits ++ [⟨op, false, f.k, f.n, 0, none⟩] } }

/-- The knot is locked by this tile. -/
def LockedBy (a : TileAt) (k : Knot) : Prop := k.state = 1 ∧ k.ownerTile = true ∧ k.ownerX = a.x ∧ k.ownerY = a.y

/-- A word enters the drain buffer of 16 words with its stream's next number, or is lost; the number is used either way (R203, R205). -/
def drained (stream : BitVec 4) (w : Pz 64) (d : DrainState) : DrainState :=
  let q := sGet 0 stream.toNat d.seq
  { buf := if d.buf.length < 16 then d.buf ++ [⟨w.data, stream, q, w.poison⟩] else d.buf
    seq := sPut 0 stream.toNat (q + 1) d.seq
    lost := if d.buf.length < 16 then d.lost else d.lost + 1 }

/-! ## Words of the statements about holds, sides and windows -/

def hold (s : State) (p : Nat) : Hold := (getPart s p).hold

/-- Everything but the tiles, sides, lacework, HBM, shuttles, events, counts and what waits for a reader is as it was, and so is every
other partition. -/
def BeatFrame (s t : State) (p : Nat) : Prop :=
  t.sec = s.sec ∧ t.links = s.links ∧ t.routes = s.routes ∧ t.fuses = s.fuses ∧ t.pending = s.pending
  ∧ t.nowNs = s.nowNs ∧ t.rackNs = s.rackNs ∧ (∀ q, q ≠ p → getPart t q = getPart s q)

/-- The request of the side's `n`-th slot word lies in HBM of the side's own quadrant, in a sector without marks. -/
def CleanSector (s : State) (g off : Nat) : Prop :=
  sGet false (off / 32) (getHbm s g).poison = false ∧ sGet .clean (off / 32) (getHbm s g).errors = .clean

/-- The eight bytes of HBM from an offset, lowest first, as a word. -/
def hbmWord (q : HbmQuad) (off : Nat) : W64 := BitVec.ofNat 64 (ofLe ((List.range 8).map fun i => hbmByte q (off + i)))

/-! ## Words of the statements about shuttles -/

def thread (s : State) (n t : Nat) : Thread := getThread (getShuttle s n) t

/-- The thread runs and may issue. -/
def Issuing (s : State) (n t : Nat) : Prop :=
  stands s n (getShuttle s n) t = false ∧ (thread s n t).state = 1 ∧ (getShuttle s n).running = some (BitVec.ofNat 4 t)

/-- The thread's `pc` passes the instruction. -/
def passPc (n t : Nat) (s : State) : State := updThread s n t fun th => { th with pc := th.pc + 4 }

/-- The thread's request stands in tag `g`, and the thread waits for it in a state; local memory is as it was, and the `pc` has passed
the instruction by `d`. -/
def Parked (s u : State) (n t g : Nat) (wait : BitVec 3) (kind : ReqKind) (a d : W64) : Prop :=
  let tag := getTag u n g
  tag.valid = true ∧ tag.thread = BitVec.ofNat 4 t ∧ tag.kind = some kind ∧ tag.address = a
  ∧ (thread u n t).state = wait ∧ (thread u n t).waiting = .tag (BitVec.ofNat 6 g) none ∧ (thread u n t).pc = (thread s n t).pc + d
  ∧ (getShuttle u n).mem = (getShuttle s n).mem ∧ (getShuttle u n).knots = (getShuttle s n).knots

/-- No tag is free: the thread waits for one, and will issue the same instruction again. -/
def awaitTag (n t : Nat) (s : State) : State :=
  updShuttle s n fun h => leaveRunning t 3 .none { h with tagStalls := h.tagStalls + 1 }

/-- The atomic operations that write what they compute, in bit vectors of the access's width (R222). -/
def amoRows (w : Nat) : List (AmoOp × (BitVec w → BitVec w → BitVec w)) :=
  [(.swap, fun _ y => y), (.add, fun x y => x + y), (.xor, fun x y => x ^^^ y), (.and, fun x y => x &&& y), (.or, fun x y => x ||| y),
   (.min, fun x y => if x.toInt < y.toInt then x else y), (.max, fun x y => if x.toInt < y.toInt then y else x),
   (.minu, fun x y => if x.toNat < y.toNat then x else y), (.maxu, fun x y => if x.toNat < y.toNat then y else x)]

/-- No thread of the shuttle waits at one of its own knots. -/
def NoOwnWaits (s : State) (n : Nat) : Prop := ∀ k : ThreadNo, ownWait (thread s n k.val) = none

/-- An operation of a thread on knot `i` of its own shuttle leaves the knot as `k` and rd with a status, and goes on. -/
def OwnKnotDone (c : Instr) (s : State) (n t i : Nat) (rd : BitVec 5) (k : Knot) (status : W64) : Prop :=
  ∃ u, Runs c s u ∧ (sGet {} i (getShuttle u n).knots : Knot) = k ∧ thread u n t = setX rd status false { thread s n t with pc := (thread s n t).pc + 4 }
    ∧ (∀ j, j ≠ i → (sGet {} j (getShuttle u n).knots : Knot) = sGet {} j (getShuttle s n).knots) ∧ (getShuttle u n).mem = (getShuttle s n).mem

/-- The thread waits at knot `i` of its own shuttle, and the knot counts it. -/
def OwnKnotWaits (c : Instr) (s : State) (n t i : Nat) : Prop :=
  let k : Knot := sGet {} i (getShuttle s n).knots
  ∃ u, Runs c s u ∧ (sGet {} i (getShuttle u n).knots : Knot) = { k with waiters := if k.waiters = 255 then 255 else k.waiters + 1 }
    ∧ (thread u n t).state = 4 ∧ (thread u n t).x = (thread s n t).x

/-- The knot is locked by the thread. -/
def LockedByThread (n t : Nat) (k : Knot) : Prop := k.state = 1 ∧ k.ownerTile = false ∧ k.owner = BitVec.ofNat 12 (16 * n + t)

/-! ## Words of the statements about messages, patterns and steps -/

/-- The request passes the checks of R413 that do not depend on what it asks for, and can be recorded (R389). -/
def Passes (s : State) (r : Role) (ix sub : Nat) (data : Bytes) : Prop :=
  accessCheck s r ix sub true = 0 ∧ auditBlocked s = false
  ∧ ∃ b e, indexOf ix = some b ∧ entryOf b.1 sub = some e ∧ typeCheck e data = 0

/-- A command of a role is answered 0, leaves the state as `u`, and one record of it is appended to the audit log: role, partition, index,
sub-index, kind, result 0 and value. -/
def Audited (c : Instr) (s : State) (r : Role) (ix sub kind : Nat) (data : Bytes) (u : State) : Prop :=
  Runs c s (answer 0 [] (auditAppend { role := roleCode r, part := rolePart r, index := ix, sub := sub, kind := kind, value := data } u))

def stepOf (s : State) (p : Nat) : StepSt := (getPart s p).step

/-- A step aborted for a cause: retried, or failed when its retries are used up; its counter stays. -/
def Aborted (s u : State) (p : Nat) (cause : Byte) : Prop :=
  (stepOf u p).lastAbort = cause ∧ (stepOf u p).counter = (stepOf s p).counter
  ∧ ((stepOf s p).retryLimit.toNat ≤ (stepOf s p).consecutive →
      (stepOf u p).state = 6 ∧ (hold u p).stepRuns = false ∧ (sGet {} (srcPart p 1) u.events.sources).line = true)
  ∧ ((stepOf s p).consecutive < (stepOf s p).retryLimit.toNat →
      (stepOf u p).state = (if (stepOf s p).reqStop then 3 else 2) ∧ (stepOf u p).retries = (stepOf s p).retries + 1 ∧ (hold u p).stepRuns = true)

/-! ## Words of the statements about links -/

/-- A packet as it stands on port `k`: its link sequence number and its check are the port's. -/
def onWire (q : Port) (pk : Packet) : Packet :=
  { pk with lseq := q.lseqTx, crc := packetCrc { pk with lseq := q.lseqTx } }

/-! ## Words of the statements about security -/

/-- Every quadrant of the part reads, from a new key on, nothing of what was written; no two share the key. -/
def Rekeyed (s u : State) : Prop :=
  ∀ g, g < quadsOf s.fuses.variant → getHbm u g = { getHbm s g with bytes := [], epoch := some (s.freeCount + g) }

/-- A signature of the module. -/
def ModuleSig (sig : Bytes) : Prop := sig.length = 96

/-! ## Words of the statements about the dictionary -/

/-- A request frame arrives at a session that waits for nothing, is well formed, is no repetition, and names an entry that is there. -/
def Heard (s : State) (tr : Transport) (f : DxpFrame) (op : Nat) (base u : Nat) (e : Entry) : Prop :=
  let x := getSession s tr
  s.pack.pins.inReset = false ∧ tr ≠ .i3c ∧ noFrame f = false ∧ f.op.toNat = op ∧ badFrame tr f = false
  ∧ x.executing = none ∧ (∀ g, x.lastReq = some g → g.requestId ≠ f.requestId) ∧ transferLate s x = false
  ∧ presentCheck s f.index.toNat f.subindex.toNat (op ≠ 6) = 0
  ∧ indexOf f.index.toNat = some (base, u) ∧ entryOf base f.subindex.toNat = some e

/-- A value of an entry that passes the checks for role `r` is written with effect `s'`. -/
def EntryWritten (s : State) (r : Role) (ix sub : Nat) (d : Bytes) (s' : State) : Prop :=
  Passes s r ix sub d ∧ (∀ w, indexOf ix = some (0xA010, w) → sub ≠ 2)
  ∧ (∃ b u e, indexOf ix = some (b, u) ∧ entryOf b sub = some e ∧ entryWrite r ix b u sub e d s = (0, s'))

/-- The record of a write that succeeded. -/
def writeRecord (tr : Option Transport) (r : Role) (ix sub : Nat) (d : Bytes) : AuditEntry :=
  { role := roleCode r, part := rolePart r, transport := transportCode tr, index := ix, sub := sub
    kind := if isCommandEntry (((indexOf ix).map (·.1)).getD 0) sub then 2 else 1, value := d }

/-- A transfer of an entry that begins in state `s`. -/
def newTransfer (s : State) (f : DxpFrame) (write : Bool) (total : Nat) (digest : Bytes) : Transfer :=
  { write := write, index := f.index, sub := f.subindex, next := 0, total := total, digest := digest, data := [], role := roleOf f
    since := s.nowNs }

def setTransfer (tr : Transport) (t : Option Transfer) (s : State) : State := updSession tr (fun x => { x with transfer := t }) s

def dxpRows : List ((Transport → DxpFrame → Instr) × Nat) :=
  [(.dxpRead, 1), (.dxpWrite, 2), (.dxpSegmentRead, 3), (.dxpWriteInitiate, 4), (.dxpSegmentWrite, 5), (.dxpDescribe, 6), (.dxpCancel, 7)]

/-! ## Words of the statements about events -/

/-- Source `i` after the one write of a clock, of the sources that path `f` covers. -/
def afterWrite (s : State) (w : CtlWrite) (i : Nat) (e : EvSource) : EvSource :=
  match w with
  | .enableSet f b => if b.getLsbD i ∧ covers s f i then { e with enable := true } else e
  | .enableClear f b => if b.getLsbD i ∧ covers s f i then { e with enable := false } else e
  | .pendingSet f b => if b.getLsbD i ∧ covers s f i then { e with pending := true } else e
  | .pendingClear f b =>
    if b.getLsbD i ∧ covers s f i then
      (if i = 0x304 ∨ i = 0x305 then { e with pending := false } else { e with pending := false, line := false, multiple := false })
    else e
  | .complete f n => if n.toNat = i ∧ covers s f i ∧ e.active then { e with active := false } else e

/-- A source whose line is up is pending. -/
def pend (e : EvSource) : EvSource := { e with pending := e.pending || e.line }

/-! ## Words of the statements about debugging and recording -/

def debugOf (s : State) (p : Nat) : Debug := (getPart s p).debugging
def recOf (s : State) (p : Nat) : Recorder := (getPart s p).recd

/-- An activity of the maintenance service runs from now on, behind those that run. -/
def ActivityRuns (s u : State) (a : Running) : Prop := u.pack.maint.active = s.pack.maint.active ++ [a] ∧ u.pack.maint.waiting = s.pack.maint.waiting

/-- An activity waits for those that it would disturb. -/
def ActivityWaits (s u : State) (a : Running) : Prop := u.pack.maint.waiting = s.pack.maint.waiting ++ [a] ∧ u.pack.maint.active = s.pack.maint.active

/-! ## Words of the statements about pins and the start -/

def startOf (s : State) : Start := s.pack.start

/-- The package has entered reset for a cause: units hold nothing, what is stored stays. -/
def EntersReset (s u : State) (cause : Byte) (status : BitVec 4) : Prop :=
  let q := u.pack.pins
  q.inReset = true ∧ q.causeReg = cause ∧ q.status = status ∧ q.perst = true ∧ q.regulators = false
  ∧ u.tiles = [] ∧ u.sides = [] ∧ u.laces = [] ∧ u.shuttles = [] ∧ u.net = []
  ∧ u.sec.roles = s.sec.roles ∧ u.sec.audit = s.sec.audit ∧ u.pack.start.journal = s.pack.start.journal ∧ u.fuses = s.fuses
  ∧ u.pending = s.pending ∧ u.pack.start.complete = false ∧ u.events = { ibiMask := s.events.ibiMask }
  ∧ u.parts = sMap {} coldPart s.parts ∧ ∀ p, (stepOf u p).state = 0

/-- The work of a phase for a unit hangs. -/
def Hangs (outs : List PhaseOutcome) (n u : Nat) : Prop :=
  ∃ o, (outs.find? fun o => o.phase.val == n && o.unit.val == u) = some o ∧ o.hang = true

/-- A start has begun and its first unit's work has not ended. -/
def StartBegun (s u : State) : Prop :=
  u.pack.pins.inReset = false ∧ u.pack.pins.status = 1 ∧ (startOf u).number = (startOf s).number + 1 ∧ (startOf u).state = 0
  ∧ (startOf u).phase = 1 ∧ (startOf u).hung = some (1, 0) ∧ (startOf u).complete = false

/-- The start has stopped in a phase for a unit. -/
def StartStopped (u : State) (n i : Nat) : Prop :=
  (startOf u).state = 2 ∧ (startOf u).phase = BitVec.ofNat 8 n ∧ (startOf u).stoppedUnit = BitVec.ofNat 8 i ∧ u.pack.pins.status = 13
  ∧ (sGet {} 0x301 u.events.sources).line = true

end Sys2Proof.Stmt

open Sys2Proof Sys2Proof.Machine Sys2Proof.Stmt

/-! ## The queue -/

/-- The command at the front of the queue runs on the state with the queue's rest. -/
def Obligations.StepRunsFrontCommand : Prop :=
  ∀ (s : State) (c : Instr) (rest : List Instr), s.pending = c :: rest → step s = exec c { s with pending := rest }

/-- On an empty queue 10 ns of management and rack time pass and nothing else changes (the model's choice, log 1 and log 6). -/
def Obligations.EmptyQueueIdles : Prop :=
  ∀ s : State, s.pending = [] → step s = .next { s with nowNs := s.nowNs + 10, rackNs := s.rackNs + 10 }

/-- No command stops the block. -/
def Obligations.EveryCommandAnswersNext : Prop := ∀ (c : Instr) (s : State), ∃ t, exec c s = .next t

/-- A step takes the command at the front and leaves the others waiting in their order; no command changes what the fuses hold: the
part, its serial number, its address, the release key and the power figures of the part. -/
def Obligations.StepKeepsFusesAndTakesOneCommand : Prop :=
  ∀ (f : Fuses) (s t : State), s.fuses = f → step s = .next t → t.fuses = f ∧ t.pending = s.pending.tail

/-! ## Scalar slot -/

/-- R78, R86, R215: the scalar operations on two registers and with an immediate, `getp` in the layout of Table 3-15, and `rdsb`: the result is
usable one beat later (`mul` two), poisoned when an operand is. -/
def Obligations.ScalarOperations : Prop :=
  (∀ (s : State) (a : TileAt) (f : SRR), tileRuns s a = true → ∀ e ∈ scalarRows,
     let x := getS (tile s a) f.ra
     let y := getS (tile s a) f.rb
     OnlyTile (e.1 a f) s a (withScalar (beatNo s a) e.2.2 f.rd (e.2.1 x.data y.data) (x.poison || y.poison)))
  ∧ (∀ (s : State) (a : TileAt), tileRuns s a = true →
     (∀ f : SRI,
       let x := getS (tile s a) f.ra
       OnlyTile (.addi a f) s a (withScalar (beatNo s a) 1 f.rd (x.data + f.imm.signExtend 32) x.poison)
       ∧ OnlyTile (.andi a f) s a (withScalar (beatNo s a) 1 f.rd (x.data &&& f.imm.zeroExtend 32) x.poison)
       ∧ OnlyTile (.ori a f) s a (withScalar (beatNo s a) 1 f.rd (x.data ||| f.imm.zeroExtend 32) x.poison))
     ∧ (∀ (rd : BitVec 4) (imm : BitVec 14),
       OnlyTile (.li a rd imm) s a (withScalar (beatNo s a) 1 rd (imm.signExtend 32) false)
       ∧ OnlyTile (.lui a rd imm) s a (withScalar (beatNo s a) 1 rd (BitVec.ofNat 32 (imm.toNat * 2 ^ 18)) false))
     ∧ (∀ (rd : BitVec 4) (r : BitVec 3),
       let p := getP (tile s a) r
       OnlyTile (.getp a rd r) s a (withScalar (beatNo s a) 1 rd ((0 : BitVec 8) ++ p.stride ++ (0 : BitVec 1) ++ p.word ++ (0 : BitVec 4) ++ p.bank) false))
     ∧ (∀ rd : BitVec 4, OnlyTile (.rdsb a rd) s a (withScalar (beatNo s a) 1 rd (BitVec.ofNat 32 (beatNo s a)) false)))

/-- R75, R78: the pointer operations note the pointer's new value for the end of the beat; `setpr` takes it from a
register in the layout of Table 3-15. R75, R78, R215: Scalar loads and stores act on 32 bits of a bank's word, where the access is made; a load's result is usable two beats
later, a store leaves the word's other half and every other word as it was and makes the word poisoned when what it stores is. -/
def Obligations.PointersLoadsAndStores : Prop :=
  (∀ (s : State) (a : TileAt) (r : BitVec 3), tileRuns s a = true →
     let p := getP (tile s a) r
     (∀ (bank : BitVec 4) (word : BitVec 7),
       OnlyTile (.setp a r bank word) s a (noteSet r ⟨bank, word, p.stride⟩))
     ∧ (∀ stride : BitVec 8, OnlyTile (.setps a r stride) s a (noteSet r ⟨p.bank, p.word, stride⟩))
     ∧ (∀ ra : BitVec 4, (getS (tile s a) ra).poison = false →
       let v := (getS (tile s a) ra).data
       OnlyTile (.setpr a r ra) s a (noteSet r ⟨v.extractLsb' 0 4, v.extractLsb' 8 7, v.extractLsb' 16 8⟩)))
  ∧ (∀ (s : State) (a : TileAt), tileRuns s a = true →
     (∀ f : SMem, CleanAccess (tile s a) f.bank f.word →
       let w := getWord (tile s a) f.bank f.word
       let v := getS (tile s a) f.r
       OnlyTile (.sld a f) s a (fun t => withScalar (beatNo s a) 2 f.r (half32 f.half w.data) w.poison (noteAccess 1 (beatNo s a) f.bank t))
       ∧ OnlyTile (.sst a f) s a (fun t => putWord f.bank f.word
           ⟨if f.half = 0 then w.data.extractLsb' 32 32 ++ v.data else v.data ++ w.data.extractLsb' 0 32, w.poison || v.poison⟩
           (noteAccess 1 (beatNo s a) f.bank t)))
     ∧ (∀ f : SPtr,
       let p := getP (tile s a) f.ptr
       CleanAccess (tile s a) p.bank p.word →
       let w := getWord (tile s a) p.bank p.word
       let v := getS (tile s a) f.r
       OnlyTile (.sldp a f) s a (fun t => noteInc f.inc f.ptr
         (withScalar (beatNo s a) 2 f.r (half32 f.half w.data) w.poison (noteAccess 1 (beatNo s a) p.bank t)))
       ∧ OnlyTile (.sstp a f) s a (fun t => noteInc f.inc f.ptr (putWord p.bank p.word
           ⟨if f.half = 0 then w.data.extractLsb' 32 32 ++ v.data else v.data ++ w.data.extractLsb' 0 32, w.poison || v.poison⟩
           (noteAccess 1 (beatNo s a) p.bank t)))))

/-- R73, R91, R92: a branch in a head tile, outside a delay slot and away from a loop's end, has two delay slots and then its target; in a
tile that is not the head of its hoop the control operations are no-operations. -/
def Obligations.BranchesAndTheirHead : Prop :=
  (∀ (s : State) (a : TileAt), tileRuns s a = true → Controls (tile s a) → FarFromLoopEnd (tile s a) →
     (∀ n : BitVec 6, OnlyTile (.jmp a n) s a (branching true false n) ∧ OnlyTile (.swap a n) s a (branching true true n))
     ∧ (∀ (ra : BitVec 4) (n : BitVec 6), (getS (tile s a) ra).poison = false →
       OnlyTile (.bz a ra n) s a (branching ((getS (tile s a) ra).data == 0) false n)
       ∧ OnlyTile (.bnz a ra n) s a (branching ((getS (tile s a) ra).data != 0) false n)
       ∧ OnlyTile (.jr a ra) s a (branching true false ((getS (tile s a) ra).data.extractLsb' 0 6))))
  ∧ (∀ (s : State) (a : TileAt) (ra : BitVec 4) (n : BitVec 6) (l : SLoop), tileRuns s a = true → tileIsHead (tile s a) = false →
     ∀ c ∈ [Instr.jmp a n, .bz a ra n, .bnz a ra n, .jr a ra, .swap a n, .loop a l], OnlyTile c s a id)

/-- R95: a loop that nothing forbids starts at the next word, with the count of its field (0 for 1,024) or of its register. -/
def Obligations.LoopStarts : Prop :=
  ∀ (s : State) (a : TileAt) (f : SLoop), tileRuns s a = true → Controls (tile s a) →
    let i := (tile s a).issue
    let r : BitVec 4 := f.count.setWidth 4
    let x := getS (tile s a) r
    let count := if f.fromReg then x.data.toNat else if f.count = 0 then 1024 else f.count.toNat
    let mine := if f.level = 0 then i.loop0 else i.loop1
    let other := if f.level = 0 then i.loop1 else i.loop0
    mine.active = false → (other.active = true → f.stop.toNat ≤ other.stop.toNat) → i.curAddr.toNat % 64 < f.stop.toNat →
    count ≠ 0 → (f.fromReg = true → x.poison = false) →
    let l : LoopLevel := ⟨BitVec.ofNat 32 count, BitVec.ofNat 6 (i.curAddr.toNat + 1), f.stop, true⟩
    OnlyTile (.loop a f) s a (fun t => { t with issue :=
      if f.level = 0 then { t.issue with loop0 := l, oneInner := false } else { t.issue with loop1 := l, oneInner := true } })

/-- R77, R85, R94, R111, R237: a legal mode outside a mode shadow is pending for words from the third beat on, and comes into force at the
end of the beat before; inside a shadow `mode_overlap` is recorded. A push through a handle that names something puts the handle word and
the value into the outbound queue, or waits in the push register; through handle 0 it does nothing. `hoop` selects an entry. -/
def Obligations.ModePushAndHoop : Prop :=
  (∀ (s : State) (a : TileAt), tileRuns s a = true →
     (∀ m : Mode, m.mfmt.toNat ≤ 5 → 4 ≤ m.srBits.toNat → m.srBits.toNat ≤ 16 → (tile s a).mode.due = none →
       OnlyTile (.mode a m) s a (fun t => { t with mode := ⟨t.mode.cur, m, some (beatNo s a + 3)⟩ })
       ∧ ∀ ra : BitVec 4, (getS (tile s a) ra).poison = false →
         (getS (tile s a) ra).data.extractLsb' 4 10 = m.mfmt ++ m.rmode ++ m.srBits →
         OnlyTile (.moder a ra) s a (fun t => { t with mode := ⟨t.mode.cur, m, some (beatNo s a + 3)⟩ }))
     ∧ (∀ d : Nat, (tile s a).mode.due = some d → d ≤ beatNo s a + 1 →
       OnlyTile (.modeTakesEffect a) s a (fun t => { t with mode := ⟨t.mode.pend, {}, none⟩ }))
     ∧ (∀ m : Mode, m.mfmt.toNat ≤ 5 → 4 ≤ m.srBits.toNat → m.srBits.toNat ≤ 16 → (tile s a).mode.due ≠ none → (tile s a).fault.valid = false →
       ∃ t, exec (.mode a m) s = .next t ∧ (tile t a).mode = (tile s a).mode ∧ (tile t a).fault.valid = true
         ∧ (tile t a).fault.code = 0x0F ∧ (tile t a).fault.slot = 1))
  ∧ (∀ (s : State) (a : TileAt) (h : BitVec 3) (ra rb : BitVec 4), tileRuns s a = true →
     let x := getS (tile s a) ra
     let y := getS (tile s a) rb
     let v : W64 := y.data ++ x.data
     let ws : List OutWord := [⟨getH (tile s a) h, true, false, false, false⟩, ⟨v, false, true, false, false⟩]
     (getH (tile s a) h = 0 → OnlyTile (.push a h ra rb) s a id)
     ∧ (getH (tile s a) h ≠ 0 → x.poison = false → y.poison = false → (tile s a).push.sWords = [] →
       ((tile s a).push.kWords = [] → (tile s a).outQ.length ≤ 14 →
         OnlyTile (.push a h ra rb) s a (fun t => { t with outQ := t.outQ ++ ws }))
       ∧ ((tile s a).push.kWords ≠ [] ∨ 14 < (tile s a).outQ.length →
         OnlyTile (.push a h ra rb) s a (fun t => { t with push := { t.push with
           sWords := ws, sHandle := h, sValue := v, kOlder := decide ((tile s a).push.kWords ≠ [])
           pushHolds := BitVec.ofNat 16 (min (t.push.pushHolds.toNat + 1) 65535) } })))
     ∧ (x.poison = false →
       OnlyTile (.hoop a ra) s a (fun t => { t with hoop := { t.hoop with next := some (x.data.extractLsb' 0 3) } })))

/-- R102 to R104, R216: what an S-slot operation records in a tile that holds no fault: `bad_bank`, a use of a poisoned register where
control or addresses depend on it, a control operation in a delay slot, and an illegal loop. The partition's halt is raised (R103). -/
def Obligations.ScalarFaultsAreRecorded : Prop :=
  ∀ (s : State) (a : TileAt), tileRuns s a = true → (tile s a).fault.valid = false →
    let recorded (c : Instr) (code : Byte) (detail : W32) : Prop :=
      ∃ t, Runs c s t ∧ (tile t a).fault.valid = true ∧ (tile t a).fault.code = code ∧ (tile t a).fault.slot = 1
        ∧ (tile t a).fault.detail = detail ∧ (tile t a).fault.sBeat = BitVec.ofNat 64 (beatNo s a)
        ∧ (getPart t (ownerOfAt s a)).hold.haltAt.isSome = true
    (∀ f : SMem, 10 ≤ f.bank.toNat →
      recorded (.sld a f) 0x04 (BitVec.ofNat 32 (f.bank.toNat + 128)) ∧ recorded (.sst a f) 0x04 (BitVec.ofNat 32 (f.bank.toNat + 128)))
    ∧ (∀ (r : BitVec 3) (ra : BitVec 4), (getS (tile s a) ra).poison = true →
      recorded (.setpr a r ra) 0x14 (BitVec.ofNat 32 (ra.toNat * 2)) ∧ recorded (.hoop a ra) 0x14 (BitVec.ofNat 32 (ra.toNat * 2)))
    ∧ (∀ n : BitVec 6, tileIsHead (tile s a) = true → (tile s a).issue.delayLeft ≠ 0 → (tile s a).beat.branch = false →
      recorded (.jmp a n) 0x0B (BitVec.ofNat 32 (tile s a).issue.brAddr.toNat)
      ∧ recorded (.swap a n) 0x0B (BitVec.ofNat 32 (tile s a).issue.brAddr.toNat))
    ∧ (∀ f : SLoop, Controls (tile s a) → f.fromReg = false →
      ((if f.level = 0 then (tile s a).issue.loop0 else (tile s a).issue.loop1).active = true
        ∨ f.stop.toNat ≤ (tile s a).issue.curAddr.toNat % 64) →
      recorded (.loop a f) 0x0D (BitVec.ofNat 32 f.level.toNat))

/-! ## Vector slot -/

/-- R147, R168 to R171, R173, Table 3-11: a legal lanewise operation's result is on its way to vd, lane by lane. R170: A legal comparison's mask has bit k set exactly when the relation holds for lane k. -/
def Obligations.VectorLanesAndComparisons : Prop :=
  (∀ (s : State) (a : TileAt) (f : VF), tileRuns s a = true → ∀ e ∈ laneRows, vLegal (tile s a) e.2.1 f = true →
     let r := vRead s a e.2.1 f
     let w := laneWidth f.ty
     let b := vBroadcast f.ty f.bcast r.2.1.data
     VAdds (e.1 a f) s a e.2.1 f (cursorClear f.vd)
       (vFlight (beatNo s a) (if f.ty = 0 then e.2.2.1 else e.2.2.2.1) e.2.1 f.ty .vector (f.vd.setWidth 4)
         (mapLanes f.ty fun k => e.2.2.2.2 f.ty (lane w k r.1.data) (lane w k b) (lane w k r.2.2.data)) ones128 0 false false
         (r.1.poison || r.2.1.poison || r.2.2.poison)))
  ∧ (∀ (s : State) (a : TileAt) (f : VF), tileRuns s a = true → ∀ e ∈ compareRows, vLegal (tile s a) e.2.1 f = true →
     let r := vRead s a e.2.1 f
     let w := laneWidth f.ty
     let b := vBroadcast f.ty f.bcast r.2.1.data
     ∃ m : W128,
       (∀ k, k < 128 → (m.getLsbD k = true ↔ k < laneCount f.ty ∧ e.2.2 (decodeLane f.ty (lane w k r.1.data)) (decodeLane f.ty (lane w k b)) = true))
       ∧ VAdds (e.1 a f) s a e.2.1 f id
         (vFlight (beatNo s a) 2 e.2.1 f.ty .mask (BitVec.ofNat 4 (f.vd.toNat % 4)) m 0xFFFF 0 false false (r.1.poison || r.2.1.poison)))

/-- R172, R175, Tables 3-6 and 6-3: select, compress, expand, the reductions and the move. -/
def Obligations.VectorSelectsAndReductions : Prop :=
  ∀ (s : State) (a : TileAt) (f : VF), tileRuns s a = true →
    let w := laneWidth f.ty
    let k := getM (tile s a) (f.c.setWidth 2)
    let adds (c : Instr) (op lat : Nat) (v mask : W128) (part poison : Bool) : Prop := vLegal (tile s a) op f = true →
      VAdds c s a op f (cursorClear f.vd) (vFlight (beatNo s a) lat op f.ty .vector (f.vd.setWidth 4) v mask 0 part false poison)
    (let r := vRead s a 0x0B f
     adds (.vsel a f) 0x0B 2 (mapLanes f.ty fun i => if k.data.getLsbD i then lane w i r.1.data else lane w i (vBroadcast f.ty f.bcast r.2.1.data))
       ones128 false (r.1.poison || r.2.1.poison || k.poison))
    ∧ (let x := (vRead s a 0x0C f).1
       adds (.vcmpr a f) 0x0C 3
         (ofLanes w (((List.range (laneCount f.ty)).filter fun i => k.data.getLsbD i).map fun i => lane w i x.data)) ones128 false (x.poison || k.poison))
    ∧ (let x := (vRead s a 0x18 f).1
       adds (.vrmax a f) 0x18 6 (mapLanes f.ty fun _ => vMaxAll f.ty x.data) ones128 false x.poison)
    ∧ (let x := (vRead s a 0x19 f).1
       adds (.vrsum a f) 0x19 6 (mapLanes f.ty fun _ => vSum f.ty x.data) ones128 false x.poison)
    ∧ (let x := (vRead s a 0x20 f).1
       adds (.vmov a f) 0x20 1 x.data ones128 false x.poison)
    ∧ (let x := (vRead s a 0x0D f).1
       vLegal (tile s a) 0x0D f = true → ∃ m v : W128, VAdds (.vexpand a f) s a 0x0D f (cursorClear f.vd)
         (vFlight (beatNo s a) 3 0x0D f.ty .vector (f.vd.setWidth 4) v m m true false (x.poison || k.poison))
       ∧ ∀ i, i < laneCount f.ty →
         lane w i m = (if k.data.getLsbD i then 2 ^ w - 1 else 0)
         ∧ lane w i v = (if k.data.getLsbD i then lane w ((List.range i).filter fun j => k.data.getLsbD j).length x.data else 0))

/-- R160, Table 3-6: `vtwosum` and `vtwoprod` give the rounded result in vd and its exact error, rounded, in vd + 1. -/
def Obligations.VectorCompensatedPairs : Prop :=
  ∀ (s : State) (a : TileAt) (f : VF), tileRuns s a = true →
    ∀ e ∈ [((Instr.vtwosum, 0x1C, addNum) : (TileAt → VF → Instr) × Nat × (FpNum → FpNum → FpNum)), (.vtwoprod, 0x1D, mulNum)],
      vLegal (tile s a) e.2.1 f = true →
      let r := vRead s a e.2.1 f
      let w := laneWidth f.ty
      let b := vBroadcast f.ty f.bcast r.2.1.data
      let exact (k : Nat) : FpNum := e.2.2 (decodeLane f.ty (lane w k r.1.data)) (decodeLane f.ty (lane w k b))
      VAdds (e.1 a f) s a e.2.1 f (fun n => cursorClear (f.vd + 1) (cursorClear f.vd n))
        (vFlight (beatNo s a) 6 e.2.1 f.ty .vector (f.vd.setWidth 4)
          (ofLanes w ((List.range (laneCount f.ty)).map fun k => roundLane f.ty (exact k))) ones128
          (ofLanes w ((List.range (laneCount f.ty)).map fun k => (compensated f.ty (exact k)).2)) false true (r.1.poison || r.2.1.poison))

/-- R148, R177 to R180: conversions and lookups. A conversion without a packed side rounds each lane in the mode in force; a lookup gives
the picot table's bytes; an interpolated lookup gives eight BF16 codes and counts what lies outside its table. -/
def Obligations.VectorConversionsAndLookups : Prop :=
  ∀ (s : State) (a : TileAt) (f : VF), tileRuns s a = true →
    (vLegal (tile s a) 0x10 f = true → ∃ t fl, Runs (.vcvt a f) s t ∧ SlotFrame s t a ∧ (tile t a).flights = (tile s a).flights ++ [fl]
      ∧ fl.exec = beatNo s a ∧ fl.due = beatNo s a + 4 ∧ fl.target = .vector ∧ fl.reg.toNat = f.vd.toNat ∧ fl.poison = (vRead s a 0x10 f).1.poison
      ∧ (f.ty = 1 → f.c = 5 → (tile s a).mode.cur.rmode = 0 →
          fl.value = ofLanes 32 ((List.range 4).map fun i =>
            (convertI32 0 (tile s a).mode.cur.srBits.toNat (srDraw (tile s a).mode.cur.srBits.toNat (getSr (tile s a) i))
              (decodeCode fmtFP32 (lane 32 i (vRead s a 0x10 f).1.data))).code)))
    ∧ (vLegal (tile s a) 0x14 f = true →
      VAdds (.vlut a f) s a 0x14 f (cursorClear f.vd) (vFlight (beatNo s a) 3 0x14 f.ty .vector (f.vd.setWidth 4)
        (ofLanes 8 ((List.range 16).map fun k =>
          (sGet 0 (f.c.toNat * 256 + lane 8 k (vRead s a 0x14 f).1.data) (tile s a).num.picot).toNat)) ones128 0 false false (vRead s a 0x14 f).1.poison))
    ∧ (vLegal (tile s a) 0x15 f = true →
      let rs := (List.range 8).map fun k => vInterp (tile s a) f.c.toNat (lane 16 k (vRead s a 0x15 f).1.data)
      VAdds (.vluti a f) s a 0x15 f
        (fun n => cursorClear f.vd { n with
          below := BitVec.ofNat 8 (min (n.below.toNat + (rs.map fun r => r.2.1).sum) 255)
          above := BitVec.ofNat 8 (min (n.above.toNat + (rs.map fun r => r.2.2.1).sum) 255)
          emptyRow := BitVec.ofNat 16 (min (n.emptyRow.toNat + (rs.map fun r => r.2.2.2).sum) 65535) })
        (vFlight (beatNo s a) 5 0x15 f.ty .vector (f.vd.setWidth 4) (ofLanes 16 (rs.map fun r => r.1)) ones128 0 false false (vRead s a 0x15 f).1.poison))

/-- R86, R215: at the end of its last beat a V-slot result is in its register; a partial one leaves the register's other bits. -/
def Obligations.VectorResultsLand : Prop :=
  ∀ (s : State) (a : TileAt) (fl : Flight) (r : BitVec 3), tileRuns s a = true → (tile s a).flights = [fl] → fl.unit = 1 → fl.due ≤ beatNo s a + 1 →
    fl.target = .vector → fl.reg = r.setWidth 4 → fl.pair = false → fl.sat = 0 → fl.nan = 0 →
    let o := getV (tile s a) r
    let new : Pz 128 := ⟨(o.data &&& ~~~fl.bits) ||| (fl.value &&& fl.bits), fl.poison || (fl.part && o.poison)⟩
    OnlyTile (.vResultLands a) s a (fun t => { t with flights := [], v := sPut {} r.toNat new t.v })

/-- R72: a V-slot or M-slot operation with an illegal encoding records `illegal_op` (0x02) and does nothing else. -/
def Obligations.IllegalSlotsFault : Prop :=
  ∀ (s : State) (a : TileAt), tileRuns s a = true → (tile s a).fault.valid = false →
    let recorded (c : Instr) (slot : BitVec 3) : Prop :=
      ∃ t, Runs c s t ∧ SlotFrame s t a ∧ (tile t a).flights = (tile s a).flights ∧ (tile t a).arr = (tile s a).arr ∧ (tile t a).num = (tile s a).num
        ∧ (tile t a).fault.valid = true ∧ (tile t a).fault.code = 0x02 ∧ (tile t a).fault.slot = slot
    (∀ f : VF, (vLegal (tile s a) 1 f = false → recorded (.vadd a f) 2) ∧ (vLegal (tile s a) 0x10 f = false → recorded (.vcvt a f) 2))
    ∧ (∀ f : MF, f.stat = 3 → recorded (.mload a f) 3 ∧ recorded (.mmac a f) 3 ∧ recorded (.mdrain a f) 3 ∧ recorded (.mscale a f) 3)

/-! ## Matrix slot -/

/-- R124, R125: an `mload` shifts the tile's part of the stationary chain one word south; a tile in the top row takes its operand
through `pa`, any other the word its north neighbour drives. The open group is closed (R118). -/
def Obligations.MatrixLoadShiftsChain : Prop :=
  ∀ (s : State) (a : TileAt) (f : MF), tileRuns s a = true → f.stat ≠ 3 →
    let u := tile s a
    ∃ t, Runs (.mload a f) s t ∧ MatrixFrame s t a
      ∧ sGet {} 0 (tile t a).arr.stat = (if u.hoop.top then mOperand u f.pa else (ctx s a).north.south)
      ∧ (∀ i, i < 3 → sGet {} (i + 1) (tile t a).arr.stat = sGet {} i u.arr.stat)
      ∧ (tile t a).beat.out.south = sGet {} 3 u.arr.stat
      ∧ (tile t a).arr.loadShifts.toNat = min (u.arr.loadShifts.toNat + 1) 8191
      ∧ (tile t a).arr.phase = 0 ∧ (tile t a).arr.inGroup = false
      ∧ (tile t a).arr.acc = u.arr.acc

/-- R117 to R123, R142: an `mmac` that continues its group uses the phase it has come to: the exact sum of products of the streamed and the
stationary (or second streamed) elements is in flight, the accumulation follows nine beats later, and the group goes to its next phase. -/
def Obligations.MatrixProducts : Prop :=
  ∀ (s : State) (a : TileAt) (f : MF), tileRuns s a = true → f.stat ≠ 3 →
    let u := tile s a
    let m := u.mode.cur.mfmt
    u.arr.groupMfmt = m → u.arr.groupStat = f.stat →
    let phase := if u.arr.inGroup then u.arr.phase.toNat else 0
    ∃ t fl, Runs (.mmac a f) s t ∧ MatrixFrame s t a ∧ (tile t a).arr.pipe = u.arr.pipe ++ [fl]
      ∧ fl.op = 2 ∧ fl.exec = beatNo s a ∧ fl.zero = f.zero ∧ fl.mfmt = m ∧ fl.stat = f.stat ∧ fl.landed = false
      ∧ (tile t a).arr.inGroup = decide (phase + 1 ≠ mfmtGroup m)
      ∧ (tile t a).arr.phase = (if phase + 1 = mfmtGroup m then 0 else BitVec.ofNat 3 (phase + 1))
      ∧ (m ≠ 2 → m ≠ 5 →
          (phase = 0 → sGet {} 0 (tile t a).arr.heldA = if u.hoop.west then mOperand u f.pa else (ctx s a).west.east)
          ∧ (phase ≠ 0 → (tile t a).arr.heldA = u.arr.heldA)
          ∧ fl.output = true ∧ fl.position.toNat = phase % 4
          ∧ (f.stat ≠ 1 → fl.accum = u.hoop.bottom
              ∧ fl.sum = dotSum m (elements (mfmtWidth m) 0 (mfmtE m) [(0, sGet {} 0 (tile t a).arr.heldA)]).1
                  (elements (mfmtWidth m) 0 (mfmtE m) [(0, sGet {} phase u.arr.stat)]).1))

/-- R127, R145: `mdrain` writes the four accumulators to the row at `pp`; `mscale` reads its scale word and puts the scaling of the row
in flight. R121, R122, R129, R143: Nine beats after its `mmac` a formed output is added to its entry of the P-mem row, or replaces it when the
accumulation starts from zero; the row's other entries keep their values. -/
def Obligations.MatrixDrainScaleAndAccumulation : Prop :=
  (∀ (s : State) (a : TileAt) (f : MF), tileRuns s a = true → f.stat ≠ 3 →
     let u := tile s a
     let p := getP u f.pp
     let acc (i : Nat) : Pz 32 := sGet {} i u.arr.acc
     let w0 : BitVec 7 := BitVec.ofNat 7 (p.word.toNat / 2 * 2)
     (CleanRow u f.pp → ∃ t, Runs (.mdrain a f) s t
       ∧ (tile t a).banks = sPut {} (bankKey p.bank w0) ⟨(acc 1).data ++ (acc 0).data, (acc 0).poison || (acc 1).poison⟩
           (sPut {} (bankKey p.bank (w0 + 1)) ⟨(acc 3).data ++ (acc 2).data, (acc 2).poison || (acc 3).poison⟩ u.banks)
       ∧ (tile t a).arr.acc = u.arr.acc ∧ (tile t a).fault = u.fault ∧ (tile t a).s = u.s ∧ (tile t a).v = u.v ∧ (tile t a).p = u.p
       ∧ (∀ k, k ≠ atKey a → getTile t k = getTile s k) ∧ t.parts = s.parts ∧ t.hbm = s.hbm ∧ t.shuttles = s.shuttles ∧ t.sides = s.sides)
     ∧ (∃ t fl, Runs (.mscale a f) s t ∧ MatrixFrame s t a ∧ (tile t a).arr.pipe = u.arr.pipe ++ [fl]
       ∧ fl.op = 4 ∧ fl.exec = beatNo s a ∧ fl.scale = (mOperand u f.pa).data ∧ fl.poison = (mOperand u f.pa).poison ∧ fl.bank = p.bank
       ∧ fl.row.toNat = p.word.toNat / 2 ∧ fl.accum = true ∧ fl.landed = false ∧ (tile t a).arr.stat = u.arr.stat ∧ (tile t a).arr.acc = u.arr.acc))
  ∧ (∀ (s : State) (a : TileAt) (fl : MFlight), tileRuns s a = true → (tile s a).arr.pipe = [fl] → fl.op = 2 → fl.stat ≠ 1 → fl.accum = true →
     fl.formed = true → fl.landed = false → fl.exec + 9 ≤ beatNo s a → (fl.bank = 6 ∨ fl.bank = 7) →
     (∀ x ∈ (tile s a).beat.acc, x.bank ≠ fl.bank) → (∀ n k : Nat, ungatedEntry (tile s a) fl.bank n k = none) →
     let row := fl.row.toNat
     let q := fl.position.toNat
     let word (i : Nat) : Pz 64 := getWord (tile s a) fl.bank (BitVec.ofNat 7 (row * 2 + i))
     let entry (t : Tile) (i : Nat) : W32 := half32 (BitVec.ofNat 1 i) (getWord t fl.bank (BitVec.ofNat 7 (row * 2 + i / 2))).data
     ∃ t, Runs (.mmacAccumulate a) s t
       ∧ entry (tile t a) q = (if fl.zero then fl.value else accFP32 (entry (tile s a) q) (decodeCode fmtFP32 fl.value.toNat))
       ∧ (∀ i, i < 4 → i ≠ q → entry (tile t a) i = entry (tile s a) i)
       ∧ (∀ i, i < 2 → (getWord (tile t a) fl.bank (BitVec.ofNat 7 (row * 2 + i))).poison
           = (fl.poison || (!fl.zero && ((word 0).poison || (word 1).poison))))
       ∧ (∀ k, k ≠ bankKey fl.bank (BitVec.ofNat 7 (row * 2)) → k ≠ bankKey fl.bank (BitVec.ofNat 7 (row * 2 + 1)) →
           sGet {} k (tile t a).banks = sGet {} k (tile s a).banks)
       ∧ (tile t a).s = (tile s a).s ∧ (tile t a).v = (tile s a).v ∧ (∀ k, k ≠ atKey a → getTile t k = getTile s k) ∧ t.parts = s.parts)

/-! ## Landing, stores, drains -/

/-- R43, R44, R53, R82, R202: land windows, loads of vector registers, and the scoreboard operations. -/
def Obligations.LandingSlotOperations : Prop :=
  ∀ (s : State) (a : TileAt), tileRuns s a = true →
    let u := tile s a
    (∀ land : BitVec 10, ∃ w : BitVec 10, (∀ b, b < 10 → (w.getLsbD b = true ↔ land.getLsbD b = true ∧ b ≠ (activeBank u).toNat))
      ∧ OnlyTile (.landWindow a land) s a (fun t => { t with beat := { t.beat with windows := w } }))
    ∧ (∀ (vd r : BitVec 3) (inc : Bool) (half : BitVec 1) (land : BitVec 10), (getP u r).bank.toNat < 6 →
      CleanAccess u (getP u r).bank (getP u r).word →
      let x := getWord u (getP u r).bank (getP u r).word
      ∃ t, Runs (.vld a vd r inc half land) s t ∧ SlotFrame s t a ∧ (tile t a).flights = u.flights ++ [
        { unit := 2, target := .vector, reg := vd.setWidth 4, exec := beatNo s a, due := beatNo s a + 2
          value := if half = 0 then (0 : W64) ++ x.data else x.data ++ (0 : W64)
          bits := if half = 0 then (0 : W64) ++ (0xFFFFFFFFFFFFFFFF : W64) else (0xFFFFFFFFFFFFFFFF : W64) ++ (0 : W64)
          part := true, pair := false, aux := 0, op := 0, ty := 0, poison := x.poison, sat := 0, nan := 0 }])
    ∧ (∀ (n : BitVec 4) (r : BitVec 3) (length : BitVec 7) (paired inUse : Bool),
      let p := getP u r
      let len := if length = 0 then 128 else length.toNat
      (armLegal u n p.bank.toNat p.word.toNat len paired inUse = true →
        OnlyTile (.arm a n r length paired inUse) s a (fun t => { t with beat := { t.beat with
          boardOps := t.beat.boardOps ++ [.arm n ⟨p.bank, p.word, BitVec.ofNat 8 len, paired, inUse, 0, false, false, true, 0, 0⟩]
          named := t.beat.named ++ [n] } }))
      ∧ (armLegal u n p.bank.toNat p.word.toNat len paired inUse = false → u.fault.valid = false →
        ∃ t, Runs (.arm a n r length paired inUse) s t ∧ SlotFrame s t a ∧ (tile t a).beat.boardOps = u.beat.boardOps
          ∧ (tile t a).fault.valid = true ∧ (tile t a).fault.code = 0x07))
    ∧ (∀ n : BitVec 4, OnlyTile (.release a n) s a (fun t => { t with beat := { t.beat with
        boardOps := t.beat.boardOps ++ [.release n], named := t.beat.named ++ [n] } }))
    ∧ (∀ n : BitVec 4, (getEntry u n).armed = true → (getEntry u (n ^^^ 1)).armed = true → (getEntry u n).paired = true →
      (getEntry u (n ^^^ 1)).paired = true → (getEntry u n).length = (getEntry u (n ^^^ 1)).length →
      OnlyTile (.flip a n) s a (fun t => { t with beat := { t.beat with boardOps := t.beat.boardOps ++ [.flip n] } }))

/-- R83, R203, R205, R215: a store writes the half of vs to a word, or all of vs to a row; a drain puts its words into the drain buffer. -/
def Obligations.StoresAndDrains : Prop :=
  ∀ (s : State) (a : TileAt), tileRuns s a = true →
    let u := tile s a
    (∀ (vs r : BitVec 3) (inc : Bool) (half : BitVec 1),
      let p := getP u r
      let v := getV u vs
      p.bank.toNat < 10 → p.bank ≠ activeBank u → (∀ x ∈ u.beat.acc, x.bank ≠ p.bank) →
      (p.bank.toNat < 6 → OnlyTile (.st a vs r inc half) s a (fun t => noteInc inc r (putWord p.bank p.word
        ⟨if half = 0 then v.data.extractLsb' 0 64 else v.data.extractLsb' 64 64, v.poison⟩ (noteAccess 5 (beatNo s a) p.bank t))))
      ∧ (6 ≤ p.bank.toNat → half = 0 → OnlyTile (.st a vs r inc half) s a (fun t => noteInc inc r
          (putWord p.bank (p.word &&& 0x7E) ⟨v.data.extractLsb' 0 64, v.poison⟩
            (putWord p.bank (p.word &&& 0x7E ||| 1) ⟨v.data.extractLsb' 64 64, v.poison⟩ (noteAccess 5 (beatNo s a) p.bank t))))))
    ∧ (∀ (r : BitVec 3) (inc : Bool) (stream : BitVec 4),
      let p := getP u r
      let x := getWord u p.bank p.word
      p.bank.toNat < 6 → CleanAccess u p.bank p.word →
      ∃ t, Runs (.drain a r inc stream) s t ∧ (tile t a).drain = drained stream x u.drain
        ∧ (tile t a).banks = u.banks ∧ (tile t a).fault = u.fault ∧ (tile t a).s = u.s ∧ (tile t a).v = u.v
        ∧ (∀ k, k ≠ atKey a → getTile t k = getTile s k) ∧ t.parts = s.parts ∧ t.hbm = s.hbm ∧ t.sides = s.sides ∧ t.shuttles = s.shuttles)
    ∧ (∀ (vs : BitVec 3) (stream : BitVec 4),
      let v := getV u vs
      ∃ t, Runs (.drainv a vs stream) s t
        ∧ (tile t a).drain = drained stream ⟨v.data.extractLsb' 64 64, v.poison⟩ (drained stream ⟨v.data.extractLsb' 0 64, v.poison⟩ u.drain)
        ∧ (tile t a).banks = u.banks ∧ (tile t a).fault = u.fault ∧ (tile t a).s = u.s ∧ (tile t a).v = u.v
        ∧ (∀ k, k ≠ atKey a → getTile t k = getTile s k) ∧ t.parts = s.parts ∧ t.hbm = s.hbm ∧ t.sides = s.sides ∧ t.shuttles = s.shuttles)

/-! ## Gates, knots and channel pushes of a tile -/

/-- R230 to R233: the operations on a knot of the tile that complete at once, and the waits and locks that do not and raise the hold. -/
def Obligations.LocalKnotOperations : Prop :=
  ∀ (s : State) (a : TileAt) (f : KKnot), tileRuns s a = true → f.viaHandle = false →
    let k := getKnot (tile s a) f.k
    k.state ≠ 2 →
    (f.n ≠ 0 →
      (k.count.toNat + f.n.toNat ≤ 65535 → OnlyTile (.signal a f) s a (setLocalKnot f.k { k with count := BitVec.ofNat 16 (k.count.toNat + f.n.toNat) }))
      ∧ (f.n.toNat ≤ k.count.toNat →
        OnlyTile (.take a f) s a (setLocalKnot f.k { k with count := BitVec.ofNat 16 (k.count.toNat - f.n.toNat), gen := k.gen + 1 })
        ∧ OnlyTile (.wait a f) s a (setLocalKnot f.k k))
      ∧ (k.count.toNat < f.n.toNat → OnlyTile (.wait a f) s a (fun t => noteWait 2 f (setLocalKnot f.k k t))))
    ∧ (f.n = 0 →
      (k.state = 0 → OnlyTile (.lock a f) s a (setLocalKnot f.k { k with state := 1, ownerTile := true, owner := 0, ownerX := a.x, ownerY := a.y }))
      ∧ (k.state ≠ 0 → ¬ LockedBy a k → OnlyTile (.lock a f) s a (fun t => noteWait 4 f (setLocalKnot f.k k t)))
      ∧ (LockedBy a k → OnlyTile (.unlock a f) s a
          (setLocalKnot f.k { k with state := 0, owner := 0, ownerTile := false, ownerX := 0, ownerY := 0, gen := k.gen + 1 })))

/-- R47, R77, R237, R240: a gate is noted for its test at the end of the beat; a `cpush` offers the message's words, with the handle
word first where it opens one; operations through handle 0 do nothing. -/
def Obligations.GatesAndChannelPushes : Prop :=
  ∀ (s : State) (a : TileAt), tileRuns s a = true →
    let u := tile s a
    (∀ e : BitVec 4, OnlyTile (.gate a e) s a (fun t => { t with beat := { t.beat with gates := t.beat.gates ++ [e] } }))
    ∧ (∀ (h r : BitVec 3) (inc last : Bool),
      let p := getP u r
      let x := getWord u p.bank p.word
      (getH u h = 0 → OnlyTile (.cpush a h r inc last) s a id)
      ∧ (getH u h ≠ 0 → u.openMsg = 0 ∨ u.openMsg = getH u h → p.bank.toNat < 6 → CleanAccess u p.bank p.word →
          u.push.kWords = [] → u.push.sWords = [] → u.outQ.length ≤ 14 →
          let first : List OutWord := if u.openMsg = 0 then [⟨getH u h, true, false, false, false⟩] else []
          let word : OutWord := ⟨x.data, false, last, false, x.poison⟩
          OnlyTile (.cpush a h r inc last) s a (fun t => noteInc inc r { noteAccess 6 (beatNo s a) p.bank t with
            outQ := t.outQ ++ (first ++ [word]), openMsg := if last then 0 else getH u h })))
    ∧ (∀ f : KKnot, f.viaHandle = true → getH u f.k = 0 → 
      (f.n ≠ 0 → OnlyTile (.signal a f) s a id ∧ OnlyTile (.wait a f) s a id ∧ OnlyTile (.take a f) s a id)
      ∧ (f.n = 0 → OnlyTile (.lock a f) s a id ∧ OnlyTile (.unlock a f) s a id))

/-- R71, R92: a head that may issue takes an idle word (n + 1 beats of the all-zero word) or a stop word, which ends its loops and marks the head as
stopped. -/
def Obligations.IdleAndStopWords : Prop :=
  ∀ (s : State) (a : TileAt), tileRuns s a = true →
    let u := tile s a
    tileIsHead u = true → u.issue.delayLeft = 0 → u.beat.pre = none → u.issue.stopped = false → u.issue.ended = false → u.issue.idleLeft = 0 →
    (∀ n : Byte, ∃ t, Runs (.idleWord a ((0 : BitVec 116) ++ n)) s t
      ∧ (tile t a).issue = { u.issue with curAddr := u.issue.nextAddr, idleLeft := n } ∧ (tile t a).fault = u.fault
      ∧ (tile t a).banks = u.banks ∧ (tile t a).s = u.s ∧ (tile t a).flights = u.flights ∧ t.parts = s.parts)
    ∧ (∃ t, Runs (.stopWord a 0) s t ∧ (tile t a).issue.stopped = true ∧ (tile t a).issue.loop0.active = false
      ∧ (tile t a).issue.loop1.active = false ∧ (tile t a).issue.curAddr = u.issue.nextAddr ∧ (tile t a).fault = u.fault
      ∧ (tile t a).banks = u.banks ∧ (tile t a).s = u.s ∧ (tile t a).flights = u.flights ∧ t.parts = s.parts)

/-! ## W-beats, holds and halts -/

/-- R206, R207, R213: in an executing W-beat the partition's S-beat count and its W-beat count each advance by one; in a held one the
S-beat count stands, the W-beat count advances, and in a step the held W-beats count. Nothing of another partition changes. -/
def Obligations.BeatsAdvanceTheCounts : Prop :=
  ∀ (s : State) (p : PartNo), partExists s p = true → replaying s p = false →
    (executes (hold s p) = true → ∃ t, Runs (.executingWBeat p) s t
      ∧ (hold t p).sBeat = (hold s p).sBeat + 1 ∧ (hold t p).wBeat = (hold s p).wBeat + 1 ∧ (hold t p).held = (hold s p).held
      ∧ (hold t p).inRun = false ∧ BeatFrame s t p)
    ∧ (executes (hold s p) = false → ∃ t, Runs (.heldWBeat p) s t
      ∧ (hold t p).sBeat = (hold s p).sBeat ∧ (hold t p).wBeat = (hold s p).wBeat + 1
      ∧ (hold t p).held = (hold s p).held + (if (hold s p).stepRuns then 1 else 0) ∧ BeatFrame s t p)
    ∧ (executes (hold s p) = false → Runs (.executingWBeat p) s s) ∧ (executes (hold s p) = true → Runs (.heldWBeat p) s s)

/-- R211, R212: a halt in force freezes its partition; a run of held W-beats that reaches the limit raises the halt. -/
def Obligations.HaltsFreezeAndHoldsTimeOut : Prop :=
  ∀ (s : State) (p : PartNo), partExists s p = true →
    ((hold s p).haltAt.isSome = true → (hold s p).frozen = false → haltInForce (hold s p) = true →
      ∃ t, Runs (.haltFreeze p) s t ∧ (hold t p).frozen = true
        ∧ ((getPart s p).debugging.onHalt = 0 → t.sec = s.sec ∧ t.pack = s.pack ∧ t.links = s.links ∧ t.hbm = s.hbm ∧ (hold t p).sBeat = (hold s p).sBeat))
    ∧ ((hold s p).haltAt = none → (hold s p).inRun = true → (hold s p).limit.toNat ≤ (hold s p).counted →
      ∃ t, Runs (.holdTimeout p) s t ∧ (hold t p).haltAt = some (hold s p).wBeat ∧ (hold t p).noMore = true
        ∧ (∀ e ∈ tilesOfPart s p, (tileRequests (getTile s (tileKey e.1 e.2))).isEmpty = true →
            getTile t (tileKey e.1 e.2) = getTile s (tileKey e.1 e.2))
        ∧ t.sec = s.sec ∧ t.hbm = s.hbm ∧ t.shuttles = s.shuttles ∧ t.sides = s.sides)

/-! ## Tile windows -/

/-- R64 to R67: a window read that the wall lets pass is answered with the window's bytes, or waits while it names a bank of an executing
tile, and times out after 4,096 W-beats; a word written into a bank of a tile that does not execute is stored without poison; while the
tile executes every write is refused and counted. -/
def Obligations.TileWindowAccesses : Prop :=
  ∀ (s : State) (by_ : Requester) (a : TileAt) (o : BitVec 14),
    let x := a.x.toNat
    let y := a.y.toNat
    let here := regionFor s by_ (tileOffset x y o.toNat) = .tile x y o.toNat ∧ mayReach s (.tile x y o.toNat) by_ = true
    here →
    (∀ n : Nat, misaligned64 (tileOffset x y o.toNat) n = false →
      (waitsForBank s by_ (tileOffset x y o.toNat) n = none →
        Runs (.tileWindowRead by_ a o n) s (answer (statusTo by_ 0) (windowBytes s (.tile x y o.toNat) n) s))
      ∧ (waitsForBank s by_ (tileOffset x y o.toNat) n = some (x, y, o.toNat) →
        let r : WindowRead := ⟨by_, none, o, n, (hold s (ownerOf s (quadOf x y))).wBeat, none⟩
        Runs (.tileWindowRead by_ a o n) s (putTile s (atKey a) { tile s a with reads := (tile s a).reads ++ [r] })))
    ∧ (∀ r : WindowRead, (tile s a).reads = [r] → r.tag = none → r.data = none →
        r.since + 4096 ≤ (hold s (ownerOf s (quadOf x y))).wBeat → (tile s a).counts.timeouts.toNat < 65535 →
        Runs (.tileWindowReadTimeout a) s (answer (statusTo r.by_ 5) []
          (putTile s (atKey a) { tile s a with reads := [], counts := { (tile s a).counts with timeouts := (tile s a).counts.timeouts + 1 } })))
    ∧ (∀ d : Bytes, d.length = 8 → o.toNat % 8 = 0 → o.toNat < 0x2800 → tileGated s x y = false →
        let runs := ownerOf s (quadOf x y) ≠ 0 ∧ tilesExecute (hold s (ownerOf s (quadOf x y))) = true
        (¬ runs → o.toNat / 1024 ≠ (activeBank (tile s a)).toNat →
          Runs (.tileWindowWrite by_ a o d) s (answer (statusTo by_ 0) []
            (putTile s (atKey a) { tile s a with banks := sPut {} (o.toNat / 8) ⟨BitVec.ofNat 64 (ofLe d), false⟩ (tile s a).banks })))
        ∧ (runs → (tile s a).counts.refused.toNat < 65535 →
          Runs (.tileWindowWrite by_ a o d) s (answer (statusTo by_ 5) []
            (putTile s (atKey a) { tile s a with counts := { (tile s a).counts with refused := (tile s a).counts.refused + 1 } }))))

/-- R49 to R51: the oldest word that waits at a tile's lane stop leaves the track and enters the empty landing buffer, in the range of an
armed entry. -/
def Obligations.LaneStopGivesWord : Prop :=
  ∀ (s : State) (a : TileAt) (w : TrackWord) (rest : List TrackWord),
    let x := a.x.toNat
    let y := a.y.toNat
    let k := sideOfTile x y
    let l := laneOfTile y
    tileOfLane k l (x % 256) = (x, y) →
    (getLane (getSide s k) l).deliver = w :: rest → waitsAtStop w = true → w.col.toNat = x % 256 → (tile s a).land = [] →
    (getEntry (tile s a) w.entry).armed = true → (getEntry (tile s a) w.entry).paired = false →
    w.offset.toNat < (getEntry (tile s a) w.entry).length.toNat →
    (getEntry (tile s a) w.entry).received.toNat < (getEntry (tile s a) w.entry).length.toNat →
    Runs (.laneStopTakesWord a) s
      (putTile (updSide s k (putLane l { getLane (getSide s k) l with deliver := rest })) (atKey a)
        { tile s a with land := [⟨0, w.data, w.offset, w.entry, w.poison, false⟩] })

/-! ## Stream engine sides -/

/-- R191, R196, R218: a trigger with room in the queue of eight is kept in order; `cq_head` is the step service's; what the side accepts is
the oldest that has reached it, into the lowest free slot, and a submission that finds no slot is answered `no_slot` (7). -/
def Obligations.SidesAcceptDescriptors : Prop :=
  ∀ (s : State) (die : DieNo) (side : SideNo),
    let k := sideKey die.val side.val
    let sd := getSide s k
    (∀ (by_ : Requester) (v : W64), die.val < diesOf s.fuses.variant → (isShuttle by_ = true ∨ isService s by_ = true) →
      mayReach s (.sideWin k 0x2000) by_ = true → triggersQueued sd < 8 →
      Runs (.triggerWrite by_ die side v) s (answer 0 [] (putSide s k { sd with inbox := sd.inbox ++ [.trigger v], lastTrigger := v })))
    ∧ (∀ (by_ : Requester) (h : BitVec 12), isService s by_ = true → mayReach s (.sideWin k 0x2018) by_ = true →
      Runs (.cqHeadWrite by_ die side h) s (putSide s k { sd with cqHead := h }))
    ∧ (∀ (w0 w1 w2 w3 : W64) (n : BitVec 8) (g : BitVec 6) (rest : List SideInput), sd.inbox = .desc w0 w1 w2 w3 n g :: rest → sd.stalled = [] →
      let d : DescSlot := { active := true, w0 := w0, w1 := w1, w2 := w2, w3 := w3 }
      (∀ i, freeSlot sd = some i → checkDescriptor s k d = 0 →
        Runs (.sideAcceptDescriptor die side) s
          (answerTag n.toNat g.toNat 0 [] false (putSide s k { sd with inbox := rest, slots := sPut {} i d sd.slots })))
      ∧ (freeSlot sd = none →
        Runs (.sideAcceptDescriptor die side) s (answerTag n.toNat g.toNat 7 [] false (putSide s k { sd with inbox := rest }))))

/-- R188, R193, R204, R478: the read of a fetch's next word in a clean sector makes it ready to place, and one that finds an
uncorrectable error marks and counts the sector and yields a poisoned zero; four buffered words of one sector reach HBM as one write; a
refresh only counts. -/
def Obligations.HbmAccessesOfASide : Prop :=
  ∀ (s : State) (die : DieNo) (side : SideNo),
    let k := sideKey die.val side.val
    let sd := getSide s k
    let g := quadOfSide k
    (∀ (i : Fin 80) (n : Nat),
      let d : DescSlot := sGet {} i.val sd.slots
      let q := dPlace d n
      let off := dAddr d q.1 q.2.1 q.2.2 - g * hbmQuadBytes s.fuses.variant
      d.active = true → d.finished = none → dKind d = 1 → d.sent ≤ n → n < dTotal d → (∀ e ∈ d.ready, e.1 ≠ n) → off % 8 = 0 → CleanSector s g off →
      Runs (.hbmAccessComplete die side (.slotWord i n) .clean) s
        (putSide s k { sd with slots := sPut {} i.val { d with ready := d.ready ++ [(n, ⟨hbmWord (getHbm s g) off, false⟩)], moved := d.moved + 1 } sd.slots })
      ∧ ∃ t, Runs (.hbmAccessComplete die side (.slotWord i n) .uncorrectable) s t
          ∧ (sGet {} i.val (getSide t k).slots : DescSlot).ready = d.ready ++ [(n, ⟨0, true⟩)]
          ∧ (getHbm t g).poison = sPut false (off / 32) true (getHbm s g).poison ∧ (getHbm t g).bytes = (getHbm s g).bytes
          ∧ (sGet {} (g / 4) t.hbmDies : HbmDie).uncorrected = (sGet {} (g / 4) s.hbmDies : HbmDie).uncorrected + 1)
    ∧ (∀ (a : Nat) (v : Nat → W64) (b : Nat → BufferedWrite), a % 32 = 0 → sd.writes = (List.range 4).map b →
        (∀ i, i < 4 → (b i).offset = a + 8 * i ∧ (b i).data = v i ∧ (b i).poison = false ∧ (b i).slot = (b 0).slot) →
        dCommit (sGet {} (b 0).slot sd.slots) = false → g * hbmQuadBytes s.fuses.variant ≤ a →
        ∃ t, Runs (.hbmAccessComplete die side .writeBuffer .clean) s t ∧ (getSide t k).writes = []
          ∧ (∀ i j, i < 4 → j < 8 → hbmByte (getHbm t g) (a - g * hbmQuadBytes s.fuses.variant + 8 * i + j) = BitVec.ofNat 8 ((v i).toNat / 256 ^ j))
          ∧ (∀ o, (o < a - g * hbmQuadBytes s.fuses.variant ∨ a - g * hbmQuadBytes s.fuses.variant + 32 ≤ o) →
              hbmByte (getHbm t g) o = hbmByte (getHbm s g) o)
          ∧ t.tiles = s.tiles ∧ t.parts = s.parts ∧ t.shuttles = s.shuttles)
    ∧ (∀ (c : Fin 32) (bank : Nat), die.val < diesOf s.fuses.variant →
        Runs (.hbmRefresh die c bank) s (updHbmDie s die.val fun d => { d with refreshes := d.refreshes + 1 }))

/-- R194, R217, R204: an arrived drain word that an active drain claims goes into the write buffer under its address, and one that none
claims stops its lane; a poisoned word of a committed tensor halts the partition and is not written. R197: A descriptor that has moved all it moves frees its slot and counts, with its record in the completion ring unless it is quiet;
while the ring has no room it keeps its slot. -/
def Obligations.DrainWordsAndDescriptorEnds : Prop :=
  (∀ (s : State) (die : DieNo) (side : SideNo) (l : Fin 16) (w : DrainTrackWord),
     let k := sideKey die.val side.val
     let sd := getSide s k
     let ln := getLane sd l.val
     ln.drain.find? (fun w => w.left == 0) = some w → 
     (claimer sd l.val w = none → w.emitted = false →
       Runs (.drainWordArrives die side l) s (putSide s k (putLane l.val { ln with stopped := true } sd)))
     ∧ (∀ i, claimer sd l.val w = some i →
       let d := sGet {} i sd.slots
       ((dCommit d && w.poison) = false → sd.writes.length < 512 →
         let b : BufferedWrite :=
           { slot := i, index := 0, offset := dAddr d l.val w.col.toNat ((w.seq.toNat + 65536 - dSeq0 d) % 65536), data := w.data, poison := w.poison,
             x := w.x, y := w.y, stream := w.stream, seq := w.seq }
         Runs (.drainWordArrives die side l) s
           (putSide s k (putLane l.val { ln with drain := ln.drain.filter (· ≠ w), stopped := false } { sd with writes := sd.writes ++ [b] })))
       ∧ (dCommit d = true → w.poison = true → (hold s (ownerOf s (quadOfSide k))).haltAt = none →
         ∃ t, Runs (.drainWordArrives die side l) s t ∧ (hold t (ownerOf s (quadOfSide k))).haltAt.isSome = true
           ∧ t.hbm = s.hbm ∧ (∀ c ∈ (getSide t k).writes, c.slot ≠ i))))
  ∧ (∀ (s : State) (die : DieNo) (side : SideNo) (i : Fin 80) (st : Byte),
     let k := sideKey die.val side.val
     let sd := getSide s k
     let d : DescSlot := sGet {} i.val sd.slots
     d.active = true → completion (laceOf s k) (hold s (ownerOf s (quadOfSide k))).wBeat sd i.val = some st →
     (bitAt 6 d.w0.toNat = true → bitAt 5 d.w0.toNat = false →
       ∃ t, Runs (.descriptorComplete die side i) s t ∧ getSide t k = { sd with slots := sPut {} i.val {} sd.slots, completions := sd.completions + 1 }
         ∧ (sGet {} (quadOfSide k) t.quadCounts).completions = (sGet {} (quadOfSide k) s.quadCounts).completions + 1
         ∧ t.tiles = s.tiles ∧ t.parts = s.parts ∧ t.hbm = s.hbm ∧ t.shuttles = s.shuttles ∧ t.net = s.net)
     ∧ (bitAt 6 d.w0.toNat = false → ringSize sd = none →
       Runs (.descriptorComplete die side i) s (putSide s k { sd with slots := sPut {} i.val { d with finished := some st } sd.slots })))

/-- R198, R199: the access of a light-path slot is made in its order and answers its tag; a clean read of HBM returns the bytes. -/
def Obligations.LightPathAnswersTags : Prop :=
  ∀ (s : State) (die : DieNo) (side : SideNo) (i : Fin 24) (g off : Nat) (rd : BitVec 5) (sgn : Bool),
    let k := sideKey die.val side.val
    let sl : LightSlot := sGet {} i.val (getSide s k).light
    let n := sl.thread.toNat / 16
    let tag : Tag := sGet {} sl.tag.toNat (getShuttle s n).tags
    let by_ : Requester := .shuttle (Fin.ofNat 256 n) (Fin.ofNat 16 (sl.thread.toNat % 16))
    sl.active = true → inOrder (getShuttle s n) sl.tag.toNat = true → sl.size = 3 → sl.offset.toNat % 8 = 0 →
    classify s.fuses.variant sl.offset.toNat = .hbm g off → off % 8 = 0 → mayReach s (.hbm g off) by_ = true → CleanSector s g off →
    tag.valid = true → tag.reply = none → tag.kind = some (.load rd false sgn) →
    ∃ t, Runs (.lightPathComplete die side i .clean) s t
      ∧ (sGet {} sl.tag.toNat (getShuttle t n).tags : Tag).reply = some 0
      ∧ (sGet {} sl.tag.toNat (getShuttle t n).tags : Tag).data = (List.range 8).map (fun j => hbmByte (getHbm s g) (off + j))
      ∧ (sGet {} sl.tag.toNat (getShuttle t n).tags : Tag).poison = false
      ∧ t.hbm = s.hbm ∧ t.parts = s.parts ∧ t.sec = s.sec ∧ t.pack = s.pack

/-! ## Shuttles -/

/-- R222, R223, R225, R243: a load or a store in the own local memory is made at once, and every other byte of it stays; any other access
takes the lowest free tag and its thread waits, or waits for a tag where none is free. -/
def Obligations.ShuttleLoadsAndStores : Prop :=
  ∀ (s : State) (f : ShMem),
    let n := f.s.val
    let t := f.t.val
    let h := getShuttle s n
    let th := thread s n t
    let size := 2 ^ f.size.toNat
    let a := xReg th f.rs1 + f.imm.signExtend 64
    let v := if f.fp then sGet 0 f.reg.toNat th.f else xReg th f.reg
    let p := if f.fp then sGet false f.reg.toNat th.fPoison else xPoisoned th f.reg
    Issuing s n t → (f.fp = true → 4 ≤ size) →
    (∀ off, placeOf s n a size = .own off →
      Runs (.shuttleLoad f) s (updThread s n t fun th =>
        loadInto f.reg f.fp f.sgn size (localRead h off size) (localPoison h off size) { th with pc := th.pc + 4 })
      ∧ ∃ u, Runs (.shuttleStore f) s u ∧ u = putShuttle s n (getShuttle u n)
        ∧ (∀ i, i < size → sGet 0 (off + i) (getShuttle u n).mem = BitVec.ofNat 8 (v.toNat / 256 ^ i))
        ∧ (∀ o, o < off ∨ off + size ≤ o → sGet 0 o (getShuttle u n).mem = sGet 0 o h.mem)
        ∧ (p = true → localPoison (getShuttle u n) off size = true)
        ∧ (size = 8 → off % 8 = 0 → localPoison (getShuttle u n) off size = p)
        ∧ (thread u n t).pc = th.pc + 4 ∧ (thread u n t).x = th.x ∧ (thread u n t).f = th.f ∧ (thread u n t).csr = th.csr)
    ∧ ((∀ off, placeOf s n a size ≠ .own off) →
      (∀ g, freeTag h = some g →
        (∃ u, Runs (.shuttleLoad f) s u ∧ Parked s u n t g 2 (.load f.reg f.fp f.sgn) a 4)
        ∧ (∃ u, Runs (.shuttleStore f) s u ∧ Parked s u n t g 2 (.store (leBytes size v.toNat) p) a 4))
      ∧ (freeTag h = none → Runs (.shuttleLoad f) s (awaitTag n t s) ∧ Runs (.shuttleStore f) s (awaitTag n t s)))

/-- R222: atomics act on the own local memory, aligned, and set an access fault elsewhere; LR sets a reservation of its thread, SC stores
and answers 0 where the thread holds it and answers 1 where it does not, and the others return what stood there and write what they compute. -/
def Obligations.ShuttleAtomics : Prop :=
  ∀ (s : State) (n : ShuttleNo) (t : ThreadNo) (rd rs1 rs2 : BitVec 5) (dword : Bool),
    let h := getShuttle s n.val
    let th := thread s n.val t.val
    let size := if dword then 8 else 4
    let a := xReg th rs1
    let passed (th : Thread) : Thread := { th with pc := th.pc + 4 }
    Issuing s n.val t.val →
    (∀ off, placeOf s n.val a size = .own off → off % size = 0 →
      let old := localRead h off size
      let p := localPoison h off size
      Runs (.shuttleAtomic n t .lr rd rs1 rs2 dword) s (updThread s n.val t.val fun th =>
        setX rd (extendLoad size true old) p { passed th with reserved := some (off / 8) })
      ∧ (th.reserved ≠ some (off / 8) →
        Runs (.shuttleAtomic n t .sc rd rs1 rs2 dword) s (updThread s n.val t.val fun th => setX rd 1 false { passed th with reserved := none }))
      ∧ (th.reserved = some (off / 8) →
        ∃ u, Runs (.shuttleAtomic n t .sc rd rs1 rs2 dword) s u ∧ localRead (getShuttle u n.val) off size = leBytes size (xReg th rs2).toNat
          ∧ (∀ o, o < off ∨ off + size ≤ o → sGet 0 o (getShuttle u n.val).mem = sGet 0 o h.mem)
          ∧ thread u n.val t.val = setX rd 0 false { passed th with reserved := none })
      ∧ (∀ e ∈ amoRows (8 * size),
        ∃ u, Runs (.shuttleAtomic n t e.1 rd rs1 rs2 dword) s u
          ∧ localRead (getShuttle u n.val) off size
            = leBytes size (e.2 (BitVec.ofNat _ (ofLe old)) (BitVec.ofNat _ (xReg th rs2).toNat)).toNat
          ∧ (∀ o, o < off ∨ off + size ≤ o → sGet 0 o (getShuttle u n.val).mem = sGet 0 o h.mem)
          ∧ xReg (thread u n.val t.val) rd = (if rd = 0 then 0 else extendLoad size true old)
          ∧ (∀ r, r ≠ rd → xReg (thread u n.val t.val) r = xReg th r)))
    ∧ (th.machine = false → (∀ off, placeOf s n.val a size = .own off → off % size ≠ 0) → ∀ op,
        Runs (.shuttleAtomic n t op rd rs1 rs2 dword) s
          (updThread s n.val t.val fun th => trapThread (if op = .lr then 5 else 7) a th.pc th))

/-- R222 to R226: a fetch that misses asks for its line of 64 bytes; a fence waits while its thread has requests; at the quantum's end and
at `sh.yield` the next ready thread runs; an exception in user mode traps, a context fault faults the thread, one in machine mode halts the
shuttle. -/
def Obligations.ThreadsWaitYieldAndTrap : Prop :=
  ∀ (s : State) (n : ShuttleNo) (t : ThreadNo),
    let h := getShuttle s n.val
    let th := thread s n.val t.val
    Issuing s n.val t.val →
    (h.icache.contains (lineOf th.pc) = false → ∀ g, freeTag h = some g →
      ∃ u, Runs (.instructionFetchMiss n t) s u ∧ Parked s u n.val t.val g 2 .fetch (BitVec.ofNat 64 (th.pc.toNat / 64 * 64)) 0)
    ∧ (h.icache.contains (lineOf th.pc) = true → Runs (.instructionFetchMiss n t) s (putShuttle s n.val h))
    ∧ (tagsOf h t.val = [] → Runs (.fence n t) s (passPc n.val t.val s))
    ∧ (tagsOf h t.val ≠ [] →
        Runs (.fence n t) s (updShuttle (passPc n.val t.val s) n.val (leaveRunning t.val 2 .fence)))
    ∧ (∀ k, nextThread t.val h = some k →
      (∃ u, Runs (.threadQuantumExpiry n) s u ∧ (getShuttle u n.val).running = some (BitVec.ofNat 4 k)
        ∧ thread u n.val t.val = { th with state := 0, waiting := .none }
        ∧ thread u n.val k = { thread s n.val k with state := 1, switches := (thread s n.val k).switches + 1 })
      ∧ (∀ f : ShOp, f.s = n → f.t = t → ∃ u, Runs (.shYield f) s u ∧ (getShuttle u n.val).running = some (BitVec.ofNat 4 k)
        ∧ thread u n.val t.val = { th with pc := th.pc + 4, state := 0, waiting := .none }))
    ∧ (nextThread t.val h = none → Runs (.threadQuantumExpiry n) s (putShuttle s n.val h))
    ∧ (∀ cause tval : W64, th.machine = false →
      Runs (.shuttleException n t cause tval false) s (updThread s n.val t.val fun th => trapThread cause tval th.pc th)
      ∧ ∃ u, Runs (.shuttleException n t cause tval true) s u ∧ (thread u n.val t.val).state = 6)
    ∧ (∀ cause : W64, th.machine = true → ∃ u, Runs (.shuttleMachineException n t cause) s u
      ∧ (∀ k : ThreadNo, (thread u n.val k.val).state = 5) ∧ (getShuttle u n.val).running = none
      ∧ (sGet {} (srcQuad (n.val / 8) 3) u.events.sources).line = true
      ∧ (getShuttle u n.val).mem = h.mem ∧ (getShuttle u n.val).knots = h.knots)

/-- R223, R225, R227: `sh.get` and `sh.put` take a tag and their thread goes on, with its number in rd; `sh.wtag` and `sh.ptag` answer the
tag's last status, or wait, or answer `pending`; `sh.desc` hands four words of local memory to a side; a completion frees its tag, and a
load's data come with it. -/
def Obligations.TagsAndDescriptors : Prop :=
  (∀ (s : State) (f : ShOp),
    let n := f.s.val
    let t := f.t.val
    let h := getShuttle s n
    let th := thread s n t
    let v := (xReg th f.rs2).toNat
    let loc := bits 17 0 v
    let size := 2 ^ bits 20 18 v
    let k := (xReg th f.rs1).toNat
    Issuing s n t →
    (∀ g, freeTag h = some g → bits 20 18 v ≠ 7 → loc + size ≤ 0x40000 →
      (∃ u, Runs (.shGet f) s u ∧ (getTag u n g).valid = true ∧ (getTag u n g).kind = some (.get (BitVec.ofNat 18 loc))
        ∧ (getTag u n g).address = xReg th f.rs1 ∧ (thread u n t) = setX f.rd (BitVec.ofNat 64 g) false { th with pc := th.pc + 4 })
      ∧ (∃ u, Runs (.shPut f) s u ∧ (getTag u n g).valid = true
        ∧ (getTag u n g).kind = some (.put (localRead h loc size) (localPoison h loc size))
        ∧ (getTag u n g).address = xReg th f.rs1 ∧ (thread u n t) = setX f.rd (BitVec.ofNat 64 g) false { th with pc := th.pc + 4 }))
    ∧ (k < 48 → (getTag s n k).valid = false →
      let u := updThread s n t fun th => setX f.rd ((getTag s n k).last.setWidth 64) false { th with pc := th.pc + 4 }
      Runs (.shWtag f) s u ∧ Runs (.shPtag f) s u)
    ∧ (k < 48 → (getTag s n k).valid = true →
      Runs (.shWtag f) s (updShuttle (passPc n t s) n (leaveRunning t 2 (.tag (BitVec.ofNat 6 k) (some f.rd))))
      ∧ Runs (.shPtag f) s (updThread s n t fun th => setX f.rd 6 false { th with pc := th.pc + 4 }))
    ∧ (∀ g, freeTag h = some g → (xReg th f.rs2).toNat < 8 → bits 17 0 k + 32 ≤ 0x40000 →
      let w (j : Nat) : W64 := BitVec.ofNat 64 (ofLe (localRead h (bits 17 0 k + 8 * j) 8))
      let side := sideOfQuad (n / 8) (xReg th f.rs2).toNat
      ∃ u a, Runs (.shDesc f) s u ∧ Parked s u n t g 2 (.desc f.rd) a 4
        ∧ getSide u side = { getSide s side with
            inbox := (getSide s side).inbox ++ [.desc (w 0) (w 1) (w 2) (w 3) (BitVec.ofNat 8 n) (BitVec.ofNat 6 g)] }))
  ∧ (∀ (s : State) (n : ShuttleNo) (g : TagNo) (out : SectorOutcome),
    let h := getShuttle s n.val
    let tag := getTag s n.val g.val
    tag.valid = true → eldest h g.val = true → isRemote (placeOf s n.val tag.address 1) = false → tag.reply = some 0 →
    (∀ rd sgn, tag.kind = some (.load rd false sgn) →
      Runs (.requestCompletion n g out) s (freeRequest n.val g.val 0
        (updThread s n.val tag.thread.toNat (setX rd (extendLoad (2 ^ tag.size.toNat) sgn tag.data) tag.poison))))
    ∧ (∀ d p, tag.kind = some (.store d p) → Runs (.requestCompletion n g out) s (freeRequest n.val g.val 0 s))
    ∧ (∀ d p, tag.kind = some (.put d p) → (∀ k : ThreadNo, ∀ r, (thread s n.val k.val).waiting ≠ .tag (BitVec.ofNat 6 g.val) r) →
      ∃ u, Runs (.requestCompletion n g out) s u ∧ getTag u n.val g.val = {} ∧ (getShuttle u n.val).requests = h.requests + 1
        ∧ (getShuttle u n.val).mem = h.mem))

/-- R227, R230 to R237: the operations of a thread on a knot of its own shuttle: what each leaves, the status in rd, and the waits of one that is
not met; a broken knot answers `broken` and stays. An operation on another knot of the partition goes into the network with its thread
parked; `sh.kinit` in user mode is an illegal instruction. -/
def Obligations.ShuttleKnotInstructions : Prop :=
  (∀ (s : State) (f : ShOp) (o i : Nat),
     let n := f.s.val
     let t := f.t.val
     let k : Knot := sGet {} i (getShuttle s n).knots
     let v := (xReg (thread s n t) f.rs2).toNat % 65536
     Issuing s n t → NoOwnWaits s n → replaying s (ownerOfShuttle s n) = false → placeOf s n (xReg (thread s n t) f.rs1) 1 = .package o →
     homeOf (classify s.fuses.variant o) = .shuttleKnot n i → reaches s (ownerOfShuttle s n) (classify s.fuses.variant o) = true →
     (k.state ≠ 2 →
       (k.count.toNat + v ≤ 65535 → OwnKnotDone (.shKsig f) s n t i f.rd { k with count := BitVec.ofNat 16 (k.count.toNat + v) } 0)
       ∧ (65535 < k.count.toNat + v → OwnKnotDone (.shKsig f) s n t i f.rd { k with count := 65535 } 0x10)
       ∧ (v ≤ k.count.toNat → OwnKnotDone (.shKwait f) s n t i f.rd k 0
         ∧ OwnKnotDone (.shKtake f) s n t i f.rd { k with count := BitVec.ofNat 16 (k.count.toNat - v), gen := k.gen + 1 } 0)
       ∧ (k.count.toNat < v → OwnKnotWaits (.shKwait f) s n t i ∧ OwnKnotDone (.shKtake f) s n t i f.rd { k with count := 0 } 0x0F)
       ∧ ((k.gen.toNat + 65536 - v) % 65536 < 32768 → OwnKnotDone (.shKwaitg f) s n t i f.rd k 0)
       ∧ (32768 ≤ (k.gen.toNat + 65536 - v) % 65536 → OwnKnotWaits (.shKwaitg f) s n t i)
       ∧ (k.state = 0 → OwnKnotDone (.shKlock f) s n t i f.rd
           { k with state := 1, ownerTile := false, owner := BitVec.ofNat 12 (16 * n + t), ownerX := 0, ownerY := 0 } 0)
       ∧ (LockedByThread n t k → OwnKnotDone (.shKlock f) s n t i f.rd k 0x10
         ∧ OwnKnotDone (.shKunlock f) s n t i f.rd { k with state := 0, ownerTile := false, owner := 0, ownerX := 0, ownerY := 0, gen := k.gen + 1 } 0)
       ∧ (k.state = 1 → ¬ LockedByThread n t k → OwnKnotWaits (.shKlock f) s n t i)
       ∧ (¬ LockedByThread n t k → OwnKnotDone (.shKunlock f) s n t i f.rd k 0x0F))
     ∧ (k.state = 2 → ∀ c ∈ [Instr.shKsig f, .shKwait f, .shKwaitg f, .shKtake f, .shKlock f, .shKunlock f],
         OwnKnotDone c s n t i f.rd k 0x11)
     ∧ OwnKnotDone (.shKread f) s n t i f.rd k (knotWord k)
     ∧ ((thread s n t).machine = true →
         let w := (xReg (thread s n t) f.rs2).toNat
         OwnKnotDone (.shKinit f) s n t i f.rd { count := BitVec.ofNat 16 w, gen := BitVec.ofNat 16 (w / 65536) } 0))
  ∧ (∀ (s : State) (f : ShOp) (o g : Nat),
     let n := f.s.val
     let t := f.t.val
     let v := (xReg (thread s n t) f.rs2).toNat % 65536
     let far := (∃ x y k, homeOf (classify s.fuses.variant o) = .tileKnot x y k) ∨ ∃ m k, m ≠ n ∧ homeOf (classify s.fuses.variant o) = .shuttleKnot m k
     Issuing s n t →
     (freeTag (getShuttle s n) = some g → placeOf s n (xReg (thread s n t) f.rs1) 1 = .package o → far →
       reaches s (ownerOfShuttle s n) (classify s.fuses.variant o) = true → isUnmapped (classify s.fuses.variant o) = false →
       (∀ e ∈ ([(.shKsig, 1), (.shKwait, 2), (.shKtake, 3), (.shKlock, 4), (.shKunlock, 5), (.shKwaitg, 6)] : List ((ShOp → Instr) × Nat)),
         let first := decide (e.2 = 2 ∨ e.2 = 4 ∨ e.2 = 6)
         ∃ u, Runs (e.1 f) s u
           ∧ Parked s u n t g 4 (.knot f.rd (BitVec.ofNat 3 e.2) (BitVec.ofNat 16 v) first) (xReg (thread s n t) f.rs1) 4
           ∧ u.net = s.net ++ [.knotOp (.thread (BitVec.ofNat 8 n) (BitVec.ofNat 6 g)) ⟨false, BitVec.ofNat 12 (16 * n + t), 0, 0⟩ (BitVec.ofNat 64 o)
               (BitVec.ofNat 3 e.2) (BitVec.ofNat 16 v) first])
       ∧ ∃ u, Runs (.shKread f) s u ∧ Parked s u n t g 4 (.knot f.rd 0 0 false) (xReg (thread s n t) f.rs1) 4)
     ∧ ((thread s n t).machine = false →
       ∃ u x, Runs (.shKinit f) s u ∧ thread u n t = trapThread 2 x (thread s n t).pc (thread s n t) ∧ (getShuttle u n).knots = (getShuttle s n).knots))


/-- R241, R244, R245, R247, R248: `sh.chopen` and `sh.cqopen` fill the lowest free entry and answer its handle, `sh.chack` moves the read
position, `sh.chpoll` answers what was produced and where, `sh.chclose` and `sh.cqclose` close, and `sh.chsend` and `sh.cqadd` hand a
message or a contribution to the network with their thread parked. -/
def Obligations.ChannelAndQueueInstructions : Prop :=
  (∀ (s : State) (f : ShOp),
     let n := f.s.val
     let t := f.t.val
     let h := getShuttle s n
     let v := (xReg (thread s n t) f.rs1).toNat
     let w := (xReg (thread s n t) f.rs2).toNat
     let done (x : W64) (upd : Shuttle → Shuttle) : State :=
       updThread (updShuttle s n upd) n t fun th => setX f.rd x false { th with pc := th.pc + 4 }
     Issuing s n t →
     (∀ c e, openChannel h v w = .ok (c, e) →
       Runs (.shChopen f) s (done (BitVec.ofNat 64 (s.links.chip.toNat * 2 ^ 48 + ctlWindow n + 0x1400 + 32 * c)) (putChannel c e))
       ∧ c < 64 ∧ (getChannel h c).opened = false ∧ (∀ j, j < c → (getChannel h j).opened = true)
       ∧ e.opened = true ∧ e.base.toNat = bits 17 0 v ∧ e.size.toNat = bits 35 18 v ∧ e.maxMsg.toNat = bits 16 0 w ∧ e.notify = bitAt 25 w
       ∧ e.knot.toNat = bits 24 17 w ∧ e.wrPos = 0 ∧ e.rdPos = 0 ∧ e.produced = 0 ∧ e.consumed = 0)
     ∧ (∀ st, openChannel h v w = .error st → Runs (.shChopen f) s (done (BitVec.ofNat 64 (2 ^ 63 + st)) id) ∧ st ∈ [0x0D, 0x0C, 0x0A, 0x0B])
     ∧ (64 ≤ v → Runs (.shChack f) s (done 0x12 id) ∧ Runs (.shChclose f) s (done 0x12 id) ∧ Runs (.shChpoll f) s (done 0 id))
     ∧ (v < 64 → (getChannel h v).opened = false →
         Runs (.shChack f) s (done 9 id) ∧ Runs (.shChclose f) s (done 9 id) ∧ Runs (.shChpoll f) s (done 0 id))
     ∧ (v < 64 → (getChannel h v).opened = true →
       let e := getChannel h v
       let rd := bits 17 0 w
       let far := (rd + e.size.toNat - e.rdPos.toNat) % e.size.toNat
       Runs (.shChclose f) s (done 0 (putChannel v { e with opened := false }))
       ∧ Runs (.shChpoll f) s (done (BitVec.ofNat 64 (e.produced.toNat + e.wrPos.toNat * 2 ^ 32)) id)
       ∧ (0 < e.size.toNat → rd % 16 = 0 → rd < e.size.toNat → far ≤ usedBytes e → bits 63 32 w ≤ (e.produced - e.consumed).toNat →
           Runs (.shChack f) s (done 0 (putChannel v { e with rdPos := BitVec.ofNat 18 rd, consumed := e.consumed + BitVec.ofNat 32 (bits 63 32 w) })))
       ∧ (0 < e.size.toNat → rd % 16 ≠ 0 ∨ e.size.toNat ≤ rd ∨ usedBytes e < far ∨ (e.produced - e.consumed).toNat < bits 63 32 w →
           Runs (.shChack f) s (done 0x0E id)))
     ∧ (∀ o g j, placeOf s n (xReg (thread s n t) f.rs1) 1 = .package o → isUnmapped (classify s.fuses.variant o) = false →
         reaches s (ownerOfShuttle s n) (classify s.fuses.variant o) = true → senderEntry (xReg (thread s n t) f.rs1) h.senders = some j →
         freeTag h = some g → bits 17 0 w + bits 34 18 w ≤ 0x40000 →
         ∃ u, Runs (.shChsend f) s u ∧ Parked s u n t g 2 (.channel f.rd) (xReg (thread s n t) f.rs1) 4
           ∧ u.net = s.net ++ [.data (.thread (BitVec.ofNat 8 n) (BitVec.ofNat 6 g)) (BitVec.ofNat 64 o)
               (localMessage h (bits 17 0 w) (bits 34 18 w)) (bits 34 18 w) 0]
           ∧ (sGet {} j (getShuttle u n).senders : Sender).handle = xReg (thread s n t) f.rs1))
  ∧ (∀ (s : State) (f : ShOp),
     let n := f.s.val
     let t := f.t.val
     let h := getShuttle s n
     let v := (xReg (thread s n t) f.rs1).toNat
     let w := (xReg (thread s n t) f.rs2).toNat
     let done (x : W64) (upd : Shuttle → Shuttle) : State :=
       updThread (updShuttle s n upd) n t fun th => setX f.rd x false { th with pc := th.pc + 4 }
     Issuing s n t →
     (∀ q e, openQueue h v w = .ok (q, e) →
       (∃ u, Runs (.shCqopen f) s u ∧ getQueue (getShuttle u n) q = e
         ∧ xReg (thread u n t) f.rd
           = (if f.rd = 0 then 0 else BitVec.ofNat 64 (s.links.chip.toNat * 2 ^ 48 + ctlWindow n + 0x1C00 + 16 * q))
         ∧ (∀ i, i < e.slots.toNat → (readCqSlot (getShuttle u n) e i).busy = false)
         ∧ (∀ j, j ≠ q → getQueue (getShuttle u n) j = getQueue h j))
       ∧ q < 16 ∧ (getQueue h q).opened = false ∧ e.opened = true ∧ e.channel.toNat = bits 5 0 v ∧ e.widthM1.toNat = bits 17 6 v
       ∧ e.contributors.toNat = bits 15 0 w ∧ e.slots.toNat = bits 23 16 w ∧ e.base.toNat = bits 41 24 w)
     ∧ (∀ st, openQueue h v w = .error st →
         Runs (.shCqopen f) s (done (BitVec.ofNat 64 (2 ^ 63 + st)) id) ∧ st ∈ [0x09, 0x0D, 0x19, 0x0C, 0x0B])
     ∧ (16 ≤ v → Runs (.shCqclose f) s (done 0x12 id))
     ∧ (v < 16 → (getQueue h v).opened = false → Runs (.shCqclose f) s (done 9 id))
     ∧ (v < 16 → (getQueue h v).opened = true → Runs (.shCqclose f) s (done 0 (putQueue v { getQueue h v with opened := false })))
     ∧ (∀ o g j m q, placeOf s n (xReg (thread s n t) f.rs1) 1 = .package o → homeAt s o = .queue m q →
         reaches s (ownerOfShuttle s n) (classify s.fuses.variant o) = true → senderEntry (xReg (thread s n t) f.rs1) h.senders = some j →
         freeTag h = some g →
         let len := 12 + 4 * (getQueue (getShuttle s m) q).widthM1.toNat
         bits 17 0 w + len ≤ 0x40000 →
         ∃ u, Runs (.shCqadd f) s u ∧ Parked s u n t g 2 (.channel f.rd) (xReg (thread s n t) f.rs1) 4
           ∧ u.net = s.net ++ [.data (.thread (BitVec.ofNat 8 n) (BitVec.ofNat 6 g)) (BitVec.ofNat 64 o) (localMessage h (bits 17 0 w) len) len 1]))

/-! ## Messages in the package -/

/-- R230, R233, R234, R237, R240: a knot operation under way is applied at its home and answered; a reply that ends a wait frees its tile; a
wait or lock not met is asked again once its time has come. -/
def Obligations.KnotMessages : Prop :=
  ∀ (s : State) (ix : Nat),
    (∀ (src : MsgFrom) (u : KnotUser) (h : W64) (op : BitVec 3) (n : W16) (first : Bool) (x y k : Nat),
      let o := bits 47 0 h.toNat
      let kn : Knot := sGet {} k (getTile s (tileKey x y)).knots
      let res := knotApply op.toNat n.toNat u kn
      netMessage s ix = some (.knotOp src u h op n first) → homeAt s o = .tileKnot x y k → replaying s (ownerOf s (quadOf x y)) = false →
      (∀ a b c, src = .tile a b c → u.tile = true → op ≠ 1 →
        ∃ t, Runs (.knotOperationApplied ix) s t ∧ (sGet {} k (getTile t (tileKey x y)).knots : Knot) = res.1
          ∧ t.net = dropAt ix s.net ++ [.knotReply src op res.2.status res.2.met res.1.count res.1.gen h]
          ∧ (∀ j, j ≠ tileKey x y → getTile t j = getTile s j) ∧ t.shuttles = s.shuttles)
      ∧ (∀ m g, src = .thread m g → (getTag s m.toNat g.toNat).valid = true → (getTag s m.toNat g.toNat).reply = none →
        ∃ t, Runs (.knotOperationApplied ix) s t
          ∧ (sGet {} k (getTile t (tileKey x y)).knots : Knot) = countWaiter op.toNat u first res.2 res.1 ∧ t.net = dropAt ix s.net
          ∧ (res.2.met = true → (getTag t m.toNat g.toNat).reply = some res.2.status)
          ∧ (res.2.met = false → (getTag t m.toNat g.toNat).reply = none ∧ (getTag t m.toNat g.toNat).resend = some (s.nowNs + 40))))
    ∧ (∀ (x y : BitVec 10) (r : BitVec 3) (op : BitVec 3) (c g : W16) (h : W64),
      let k := tileKey x.toNat y.toNat
      netMessage s ix = some (.knotReply (.tile x y r) op 0 true c g h) →
      ∃ t, Runs (.knotReply ix) s t ∧ t.net = dropAt ix s.net ∧ (getTile t k).hold.waits = (takeWait op h (getTile s k).hold.waits).2
        ∧ (getTile t k).fault = (getTile s k).fault ∧ (∀ j, j ≠ k → getTile t j = getTile s j) ∧ t.parts = s.parts)
    ∧ (∀ (a : TileAt) (w : KWait) (ws : List KWait), dueWait (hold s (ownerOfAt s a)).wBeat (tile s a).hold.waits = some (w, ws) →
      (tile s a).outQ.length ≤ 14 →
      Runs (.knotRetry (.tile a)) s (putTile s (atKey a) { tile s a with
        hold := { (tile s a).hold with waits := ws }, outQ := (tile s a).outQ ++ knotWords w.handle w.op.toNat w.n.toNat false }))
    ∧ (∀ (n : ShuttleNo) (g : TagNo) (due o : Nat) (rd : BitVec 5) (op : BitVec 3) (v : W16) (first : Bool),
      let tag := getTag s n.val g.val
      tag.valid = true → tag.resend = some due → due ≤ s.nowNs → tag.kind = some (.knot rd op v first) →
      placeOf s n.val tag.address 1 = .package o →
      ∃ t, Runs (.knotRetry (.thread n g)) s t ∧ getTag t n.val g.val = { tag with resend := none }
        ∧ t.net = s.net ++ [.knotOp (.thread (BitVec.ofNat 8 n.val) (BitVec.ofNat 6 g.val))
            ⟨false, BitVec.ofNat 12 (16 * n.val + tag.thread.toNat), 0, 0⟩ (BitVec.ofNat 64 o) op v false])

/-- R239, R241 to R249: a forwarder sends a tile's operations and messages on; a message with room becomes a record of its channel and is
acknowledged, one without is refused; a contribution enters its queue; a finished slot's message is written when its channel has room. -/
def Obligations.MessagesReachTheirHome : Prop :=
  (∀ (s : State) (die : DieNo) (side : SideNo) (m : FwdMsg) (rest : List FwdMsg),
    let k := sideKey die.val side.val
    let h := msgHandle m
    let o := bits 47 0 h.toNat
    let reg := BitVec.ofNat 3 (handleReg (getTile s (tileKey m.x.toNat m.y.toNat)) h)
    forwards s k = true → (getSide s k).fwd = m :: rest → m.complete = true → m.sent = false → bits 63 48 h.toNat = 0xFFFF →
    isUnmapped (classify s.fuses.variant o) = false → reaches s (ownerOf s (quadOfSide k)) (classify s.fuses.variant o) = true →
    (m.retryAt = none → (m.words.head?.map (·.knot)) = some true → ∀ w : OutWord, m.words[1]? = some w →
      Runs (.forwarderMessage die side) s { updSide s k (fun sd => { sd with fwd := rest }) with
        net := s.net ++ [.knotOp (.tile m.x m.y reg) ⟨true, 0, m.x, m.y⟩ h (BitVec.ofNat 3 (bits 2 0 w.data.toNat))
          (BitVec.ofNat 16 (bits 15 8 w.data.toNat)) (bitAt 16 w.data.toNat)] })
    ∧ ((m.words.head?.map (·.knot)) = some false → (∀ j, homeOf (classify s.fuses.variant o) ≠ .trigger j) →
      ∀ e, senderEntry h (getSide s k).senders = some e →
      let sent (t : State) : Prop :=
        t.net = s.net ++ [.data (.tile m.x m.y reg) h (msgWords m) (8 * (msgWords m).length) 2]
        ∧ (getSide t k).fwd = { m with sent := true, retryAt := none } :: rest
        ∧ t.tiles = s.tiles ∧ t.shuttles = s.shuttles ∧ t.parts = s.parts
      (m.retryAt = none → ∃ t, Runs (.forwarderMessage die side) s t ∧ sent t)
      ∧ (∀ at_, m.retryAt = some at_ → at_ ≤ s.nowNs → ∃ t, Runs (.forwarderRetry die side) s t ∧ sent t)))
  ∧ (∀ (s : State) (ix : Nat) (m : BitVec 8) (g : BitVec 6) (h : W64) (ws : List (Pz 64)) (len n i : Nat),
    let o := bits 47 0 h.toNat
    let src : MsgFrom := .thread m g
    NoOwnWaits s n → replaying s (ownerOfShuttle s n) = false → m.toNat ≠ n →
    (getTag s m.toNat g.toNat).valid = true → (getTag s m.toNat g.toNat).reply = none →
    (netMessage s ix = some (.data src h ws len 0) → homeAt s o = .channel n i →
      (∀ u, channelAccept i (sourceWord s src) ws len (getShuttle s n) = (u, 0) →
        ∃ t, Runs (.channelMessageArrival ix) s t ∧ getShuttle t n = u ∧ (getTag t m.toNat g.toNat).reply = some 0 ∧ t.net = dropAt ix s.net
          ∧ (getChannel u i).produced = (getChannel (getShuttle s n) i).produced + 1)
      ∧ (∀ u st, st < 256 → st ≠ 0 → channelAccept i (sourceWord s src) ws len (getShuttle s n) = (u, st) →
        ∃ t, Runs (.channelMessageArrival ix) s t ∧ (getTag t m.toNat g.toNat).reply = some (BitVec.ofNat 8 st) ∧ t.net = dropAt ix s.net
          ∧ getShuttle t n = putChannel i { getChannel (getShuttle s n) i with
              refusals := (getChannel (getShuttle s n) i).refusals + 1 } (getShuttle s n)))
    ∧ (netMessage s ix = some (.data src h ws len 1) → homeAt s o = .queue n i →
      ∀ u, queueAccept i ws len (getShuttle s n) = (u, 0) → (∀ j, j < (getQueue u i).slots.toNat → finishedSlot u i j = false) →
        ∃ t, Runs (.cqContributionArrival ix) s t ∧ getShuttle t n = u ∧ (getTag t m.toNat g.toNat).reply = some 0 ∧ t.net = dropAt ix s.net))
  ∧ (∀ (s : State) (n : ShuttleNo) (q : Fin 16),
    let h := getShuttle s n.val
    NoOwnWaits s n.val → replaying s (ownerOfShuttle s n.val) = false → (getQueue h q.val).opened = true → (getQueue h q.val).slots = 1 →
    finishedSlot h q.val 0 = true →
    ∃ t, Runs (.cqMessageWritten n q) s t ∧ getShuttle t n.val = emitSlot n.val s.links.chip q.val 0 h)

/-! ## Patterns, regions and lacework segments -/

/-- R265 to R268, R336 to R340, R359: a pattern that every check passes is installed, and unloading it leaves none; regions ungate in
ascending and gate in descending order; a segment takes an image that passes, is emptied, and captures; its fabric ticks when it is due. -/
def Obligations.PatternsRegionsAndSegments : Prop :=
  (∀ (s : State) (r : Role) (p : PartNo),
    let st := stepState s p.val
    let image := (getPart s p.val).pattern.image
    (Passes s r (0x8010 + p.val) 2 [1] → st ∈ [0, 1, 4, 6] → quadMissing s p.val = false →
      ∀ im pl v, loadChecks p.val image s = .ok (im, pl, v, true) →
      ∃ u, Audited (.patternLoad r p true) s r (0x8010 + p.val) 2 2 [1] u
        ∧ (getPart u p.val).pattern.state = 2 ∧ (getPart u p.val).pattern.digest = sha384 image ∧ (getPart u p.val).pattern.installed = image
        ∧ (stepOf u p.val).state = 1 ∧ (stepOf u p.val).counter = 0 ∧ (stepOf u p.val).lineage = sha384 im.hbmInit
        ∧ (hold u p.val).haltAt = none ∧ (hold u p.val).stepRuns = false ∧ (sGet {} (srcPart p.val 8) u.events.sources).line = true)
    ∧ (Passes s r (0x8010 + p.val) 2 [2] → st ∈ [1, 4, 6] →
      ∃ u, Audited (.patternUnload r p) s r (0x8010 + p.val) 2 2 [2] u ∧ (stepOf u p.val).state = 0
        ∧ (getPart u p.val).pattern = { expected := (getPart s p.val).pattern.expected, seed := (getPart s p.val).pattern.seed }
        ∧ u.tiles = s.tiles ∧ u.hbm = s.hbm)
    ∧ (∀ k, p.val ≠ 0 → nextGated s p.val = some k →
        Runs (.regionUngate p) s { s with pack := { s.pack with
          regions := sPut {} k { getRegion s k with state := 1 } s.pack.regions } })
    ∧ (∀ k, p.val ≠ 0 → nextOpen s p.val = some k → st ∈ [0, 7] →
        Runs (.regionGate p) s { s with pack := { s.pack with
          regions := sPut {} k { getRegion s k with state := 0 } s.pack.regions } }))
  ∧ (∀ (s : State) (r : Role) (g : QuadNo),
    let v := getLace s g.val
    (Passes s r (0x6010 + g.val) 2 [1] → ∀ v' : LaceSeg, loadSegment s g.val v.staged { v with command := 1 } = (0, 0, v') →
      ∃ u, Audited (.laceLoad r g) s r (0x6010 + g.val) 2 2 [1] u ∧ getLace u g.val = v'
        ∧ v'.state = 2 ∧ v'.digest = sha384 (laceBody v.staged) ∧ v'.ratio = BitVec.ofNat 3 (laceRatioOf v.staged)
        ∧ u.tiles = s.tiles ∧ u.hbm = s.hbm ∧ u.shuttles = s.shuttles)
    ∧ (Passes s r (0x6010 + g.val) 2 [2] → laceFree s g.val = true →
      ∃ u, Audited (.laceEmpty r g) s r (0x6010 + g.val) 2 2 [2] u ∧ getLace u g.val = emptySegment { v with command := 2 }
        ∧ u.tiles = s.tiles ∧ u.hbm = s.hbm ∧ u.shuttles = s.shuttles ∧ u.parts = s.parts))
  ∧ (∀ (s : State) (by_ : Requester) (g : QuadNo),
    let v := getLace s g.val
    (hasLacework s.fuses.variant = true → g.val < quadsOf s.fuses.variant → mayReach s (.lace g.val 0x300008) by_ = true →
      mayCapture s by_ = true → v.state = 2 →
      Runs (.laceCapture by_ g) s (putLace s g.val { v with ctl := 1, capturePending := true }))
    ∧ (tickDue s g.val = true →
      let p := ownerOf s g.val
      let w := (hold s p).wBeat
      ∃ u, Runs (.fabricTick g) s u
        ∧ getLace u g.val = tickSegment w (rowStopped s g.val) (fun k => sideOfRow g.val k % 2) v
        ∧ (getLace u g.val).ticked = some w ∧ u.tiles = s.tiles ∧ u.sides = s.sides ∧ u.hbm = s.hbm ∧ u.parts = s.parts
        ∧ (v.capturePending = true → (getLace u g.val).captureValid = true ∧ (getLace u g.val).capturePending = false
            ∧ (getLace u g.val).captureWBeat = BitVec.ofNat 64 w
            ∧ (getLace u g.val).cap0 = (getLace u g.val).ff0 ∧ (getLace u g.val).cap1 = (getLace u g.val).ff1))
    ∧ (tickDue s g.val = false → Runs (.fabricTick g) s s))

/-! ## Steps -/

/-- R275, R278, R280 to R283: what each of the seven step commands does in a state that accepts it. -/
def Obligations.StepCommands : Prop :=
  ∀ (s : State) (r : Role) (p : PartNo) (im : Image),
    let ix := 0x8410 + p.val
    let q := stepOf s p.val
    let noted (v : Byte) : State := updStep s p.val fun q => { q with command := v }
    installedImage s p.val = some im → r ≠ .installer →
    (Passes s r ix 1 [1] → q.state = 4 → q.stopReason ≠ 4 → quadMissing s p.val = false →
      let e := endKnot im (placedOf s p.val)
      ∃ u, Audited (.stepStart r p) s r ix 1 2 [1] u ∧ u = startStep p.val im (noted 1) ∧ (stepOf u p.val).state = 2
        ∧ (stepOf u p.val).counter = q.counter ∧ (hold u p.val).stepRuns = true ∧ (hold u p.val).haltAt = none ∧ (hold u p.val).frozen = false
        ∧ (sGet {} e.2.1 (getShuttle u e.1).knots : Knot) = { gen := (sGet {} e.2.1 (getShuttle s e.1).knots : Knot).gen })
    ∧ (Passes s r ix 1 [2] → q.state = 2 →
      Audited (.stepStop r p) s r ix 1 2 [2] (updStep s p.val fun q => { q with command := 2, reqStop := true, state := 3 }))
    ∧ (Passes s r ix 1 [3] → q.state = 2 ∨ q.state = 3 → ∃ u, Audited (.stepAbortCommand r p) s r ix 1 2 [3] u ∧ Aborted s u p.val 7)
    ∧ (Passes s r ix 1 [4] → q.state = 2 →
      Audited (.checkpointCommand r p) s r ix 1 2 [4] (updStep s p.val fun q => { q with command := 4, reqCheckpoint := true }))
    ∧ (Passes s r ix 1 [5] → q.state = 2 → saveRoom s im = true →
      Audited (.preEmpt r p) s r ix 1 2 [5] (updStep s p.val fun q => { q with command := 5, reqPreempt := true }))
    ∧ (Passes s r ix 1 [6] → q.state = 7 → ∀ a b, translation (noted 6) p.val im = some (a, b) → placementLegal (noted 6) p.val im a b = true →
      im.localOnly = true → badIndex (laceRefHolds (noted 6) im ⟨p.val, a, b⟩) im.laceRefs = none →
      ∃ u, Audited (.resume r p) s r ix 1 2 [6] u ∧ u = startStep p.val im (restoreSave p.val im ⟨p.val, a, b⟩ (ungateAll p.val (noted 6)))
        ∧ (stepOf u p.val).state = 2 ∧ (hold u p.val).stepRuns = true)
    ∧ (Passes s r ix 1 [7] → q.state = 4 ∨ q.state = 6 → ∀ c, q.checkpoints.find? (·.complete) = some c →
      ∃ u, Audited (.restoreCheckpoint r p) s r ix 1 2 [7] u ∧ (stepOf u p.val).state = 4 ∧ (stepOf u p.val).counter = c.rec_.counter
        ∧ (stepOf u p.val).records = [c.rec_] ∧ (getPart u p.val).pattern.seedInForce = c.seed)

/-- R276, R279 to R281, R307, R308: at a boundary the counter and the lineage advance, and a requested stop or the target stops the
partition, else the next step starts; a cause of an abort, or a step that lasts too long, aborts; what peers send is kept or aborts. -/
def Obligations.StepsEndAbortAndMeetPeers : Prop :=
  ∀ (s : State) (p : PartNo) (im : Image),
    let q := stepOf s p.val
    installedImage s p.val = some im →
    (inStep s p.val = true → (hold s p.val).haltAt = none → q.phase = 7 → q.reqPreempt = false →
      (q.reqStop = true → Runs (.stepBoundary p) s (stopStep p.val 1 s))
      ∧ (q.reqStop = false → q.target ≠ 0 → q.target.toNat ≤ q.counter.toNat → Runs (.stepBoundary p) s (stopStep p.val 2 s))
      ∧ (q.reqStop = false → q.target = 0 ∨ q.counter.toNat < q.target.toNat → Runs (.stepBoundary p) s (startStep p.val im s)))
    ∧ (inStep s p.val = true → (hold s p.val).haltAt = none → q.phase = 0 → stepEnded s p.val im = true → replaying s p.val = false →
      (q.counter.toNat = 2 ^ 48 - 1 →
        ∃ u, Runs (.stepBoundary p) s u ∧ (stepOf u p.val).state = 4 ∧ (stepOf u p.val).stopReason = 4 ∧ (stepOf u p.val).counter = q.counter)
      ∧ (q.counter.toNat < 2 ^ 48 - 1 → carriedPoisoned s p.val im = false → (getPart s p.val).sync.interval = 0 → q.interval = 0 →
          q.reqCheckpoint = false → (getPart s p.val).recd.arming = false → (getPart s p.val).recd.state = 0 → sealRoom s p.val = true →
          q.reeval = false → q.reqPreempt = false → q.reqStop = true →
        ∃ u, Runs (.stepBoundary p) s u ∧ (stepOf u p.val).state = 4 ∧ (stepOf u p.val).stopReason = 1
          ∧ (stepOf u p.val).counter = q.counter + 1 ∧ (stepOf u p.val).inputDigest = sha384 q.batch
          ∧ (stepOf u p.val).lineage = sha384 (fixedBytes 48 q.lineage ++ sha384 q.batch)
          ∧ (getPart u p.val).seals.queue.length = (getPart s p.val).seals.queue.length + 1 ∧ (hold u p.val).stepRuns = false))
    ∧ (inStep s p.val = false → Runs (.stepBoundary p) s s)
    ∧ (inStep s p.val = true → q.phase = 0 → stepEnded s p.val im = false → Runs (.stepBoundary p) s s)
    ∧ (∀ cause : Byte, inStep s p.val = true → causeHolds s p.val im cause.toNat = true → ∃ u, Runs (.stepAbort p cause) s u ∧ Aborted s u p.val cause)
    ∧ (inStep s p.val = true → stepLimit s p.val < stepTime s p.val → ∃ u, Runs (.stepTimeout p) s u ∧ Aborted s u p.val 8)
    ∧ (∀ (n : BitVec 48) (cause : Byte),
        (inStep s p.val = true → q.counter = n → ∃ u, Runs (.serviceStepAbort p n cause) s u ∧ Aborted s u p.val 6)
        ∧ (q.counter ≠ n → Runs (.serviceStepAbort p n cause) s s))
    ∧ (∀ (peer : W16) (n : BitVec 48) (counts : List (W64 × W32)), q.state ≠ 0 →
        Runs (.serviceCountExchange p peer n counts) s (updStep s p.val fun q => { q with peerCounts := q.peerCounts ++ [(peer, n, counts)] })
        ∧ Runs (.serviceBarrier p peer n) s (updStep s p.val fun q => { q with arrived := q.arrived ++ [(peer, n)] }))

/-! ## Chip links -/

/-- R294 to R298, R300 to R303: a packet in order of its link is taken and its credits go back, a damaged one is asked for again; one for
another chip is passed on with one more hop, and a reply in order of its flow answers its request. The lanes' errors are counted. -/
def Obligations.PacketsArrive : Prop :=
  ∀ (s : State) (port : PortNo) (pk : Packet) (line : LineErrors),
    let k := port.val
    let q := getPort s k
    let p := portOwner s k
    let key := chipFlow pk.srcChip pk.flow
    let f := getFlow s k key
    q.state = 2 → q.sinceAck < 63 →
    (line.bad = false → packetCrc pk = pk.crc → pk.lseq = q.lseqRx →
      (p = 0 → Runs (.packetReceive port pk line) s (putPort s k { countLine line q with
        lseqRx := q.lseqRx + 1, asked := false, sinceAck := q.sinceAck + 1, wire := q.wire ++ [.credit (creditsOf pk)] }))
      ∧ (p ≠ 0 → pk.cls.toNat < 11 → pk.destChip ≠ s.links.chip →
        (pk.hops.toNat < 14 → candidates s p pk.destChip ≠ [] →
          ∃ u, Runs (.packetReceive port pk line) s u ∧ (getPort u k).lseqRx = q.lseqRx + 1
            ∧ (∃ t : TxPacket, t.pk = { pk with hops := pk.hops + 1 } ∧ t.transit = true ∧ (getRoute u p).waiting = (getRoute s p).waiting ++ [t])
            ∧ (getRoute u p).transitDrops = (getRoute s p).transitDrops ∧ u.shuttles = s.shuttles ∧ u.tiles = s.tiles)
        ∧ (14 ≤ pk.hops.toNat ∨ candidates s p pk.destChip = [] →
          ∃ u, Runs (.packetReceive port pk line) s u ∧ (getPort u k).lseqRx = q.lseqRx + 1
            ∧ (getRoute u p).waiting = (getRoute s p).waiting ∧ (getRoute u p).transitDrops = (getRoute s p).transitDrops + 1))
      ∧ (p ≠ 0 → pk.cls = 7 → pk.destChip = s.links.chip → replaying s p = false → f.live = true → pk.flowStart = false →
          f.expected = pk.fseq → f.skip = 0 → f.stored = [] → pk.first = true → pk.last = true → beingSaved s p = false →
          (getPart s p).debugging.state ≠ 3 → ownerOfShuttle s (pk.srcThread.toNat / 16) = p →
          (getTag s (pk.srcThread.toNat / 16) pk.tag.toNat).valid = true → (getTag s (pk.srcThread.toNat / 16) pk.tag.toNat).reply = none →
        ∃ u, Runs (.packetReceive port pk line) s u ∧ (getPort u k).lseqRx = q.lseqRx + 1 ∧ (getFlow u k key).expected = pk.fseq + 1
          ∧ (getTag u (pk.srcThread.toNat / 16) pk.tag.toNat).reply = some (BitVec.ofNat 8 pk.operand.toNat)
          ∧ (getTag u (pk.srcThread.toNat / 16) pk.tag.toNat).data = pk.payload))
    ∧ (line.bad = true → q.asked = false → Runs (.packetReceive port pk line) s (putPort s k { countLine line q with
        crcErrors := if packetCrc pk = pk.crc then q.crcErrors else satAdd 16 q.crcErrors 1
        fecBad := q.fecBad + 1, asked := true, wire := q.wire ++ [.retry q.lseqRx] }))

/-- R295 to R297: a retry request is answered from the packet it names on, and the sixteenth in a row for one packet takes the port down;
acknowledgements free packets, credits add up to 4,096, lost signal takes the port down, and 200 ns after the last acknowledgement the
next one leaves. R289, R290, R299, R304: The writes of the lane map, a port's mode, a route entry and the unreachable chips. -/
def Obligations.LinkControlAndEntries : Prop :=
  (∀ (s : State) (port : PortNo),
     let k := port.val
     let q := getPort s k
     q.state = 2 →
     (∀ n : BitVec 12,
       let run := if q.retryRun ≠ 0 ∧ q.retryName = n then q.retryRun + 1 else 1
       (run < 16 → Runs (.linkRetryRequest port n) s (putPort s k { q with
         retries := q.retries + 1, retryName := n, retryRun := run
         wire := q.wire ++ (q.replay.filter fun p => decide ((p.lseq - n).toNat < 2048)).map .packet }))
       ∧ (16 ≤ run → ∃ u, Runs (.linkRetryRequest port n) s u ∧ (getPort u k).state = 3 ∧ (getPort u k).downReason = 5
           ∧ (getPort u k).downs = q.downs + 1 ∧ (getPort u k).replay = [] ∧ (sGet {} (srcPort k 0) u.events.sources).line = true)
       ∧ Runs (.linkAck port n) s (putPort s k { q with
           replay := q.replay.filter fun p => decide (0 < (p.lseq - n).toNat) && decide ((p.lseq - n).toNat < 2048) }))
     ∧ (∀ n : Nat, Runs (.creditGrant port n) s (putPort s k { q with credits := min (q.credits + n) 4096 }))
     ∧ (∃ u, Runs (.lossOfSignal port) s u ∧ (getPort u k).state = 3 ∧ (getPort u k).downReason = 4 ∧ (getPort u k).downs = q.downs + 1
         ∧ (getPort u k).replay = [] ∧ (sGet {} (srcPort k 0) u.events.sources).line = true ∧ u.shuttles = s.shuttles ∧ u.tiles = s.tiles)
     ∧ (q.sinceAck ≠ 0 → q.ackAt + 200 ≤ s.nowNs →
         Runs (.linkAcknowledgementTimer port) s (putPort s k { q with wire := q.wire ++ [.ack (q.lseqRx - 1)], sinceAck := 0, ackAt := s.nowNs }))
     ∧ (q.sinceAck = 0 ∨ s.nowNs < q.ackAt + 200 → Runs (.linkAcknowledgementTimer port) s s))
  ∧ (∀ (s : State) (r : Role),
     (∀ map : Bytes, Passes s r 0x5000 2 map → laneMapLegal s.fuses.variant map = true →
       ∃ u, Audited (.laneMapWrite r map) s r 0x5000 2 1 map u ∧ u.links = { s.links with laneMap := putLaneMap map } ∧ u.routes = s.routes
         ∧ u.parts = s.parts)
     ∧ (∀ (port : PortNo) (m : Byte), Passes s r (0x5010 + port.val) 1 [m] →
       m = 0 ∨ (m = 1 ∧ 10 ≤ port.val ∧ bitAt (port.val - 10) (ingestMask s.fuses.variant) = true) →
       ∃ u, Audited (.portModeWrite r port m) s r (0x5010 + port.val) 1 1 [m] u ∧ getPort u port.val = { getPort s port.val with modeCfg := m }
         ∧ u.routes = s.routes)
     ∧ (∀ (p : PartNo) (chip : BitVec 12) (ports : W16),
       let data := wordsBytes 4096 (sPut 0 chip.toNat ports (getRoute s p.val).table)
       Passes s r (0x5110 + p.val) 1 data → ports.toNat < 4096 → routesLegal s p.val (leBytes 2 ports.toNat) = true →
       ∃ u, Audited (.routeTableWrite r p chip ports) s r (0x5110 + p.val) 1 1 data u
         ∧ (getRoute u p.val).table = sPut 0 chip.toNat ports (getRoute s p.val).table
         ∧ sGet false chip.toNat (getRoute u p.val).unreach = false)
     ∧ (∀ (p : PartNo) (b : Bytes), Passes s r (0x5110 + p.val) 6 b →
       ∃ u, Audited (.unreachableChipsWrite r p b) s r (0x5110 + p.val) 6 1 b u
         ∧ (∀ e ∈ (getRoute s p.val).unreach, sGet false e.1 (bytesBits (fixedBytes 512 b)) = false → e.1 < 65536 →
             sGet false e.1 (getRoute u p.val).unreach = false)
         ∧ (getRoute u p.val).table = (getRoute s p.val).table))

/-- R299 to R304, R311: a packet leaves through the port its partition chooses and is kept until it is acknowledged; acknowledgements,
NAKs, timeouts, the chip that cannot be reached, idle flows, and the exchange that sets rack time. -/
def Obligations.FlowsEndToEnd : Prop :=
  (∀ (s : State) (p : PartNo),
    let r := getRoute s p.val
    (∀ i t k, firstDeparture s p.val r.waiting 0 = some (i, t, k) →
      let q := getPort s k
      ∃ u, Runs (.packetDeparture p) s u ∧ (getRoute u p.val).waiting = dropAt i r.waiting
        ∧ (getRoute u p.val).retained = (if t.transit || !flowClass t.pk.cls then r.retained
            else r.retained ++ [{ t with sent := some s.nowNs, port := BitVec.ofNat 4 k }])
        ∧ getPort u k = { q with lseqTx := q.lseqTx + 1, replay := q.replay ++ [onWire q t.pk], credits := q.credits - creditsOf t.pk
                                 wire := q.wire ++ [.packet (onWire q t.pk)] })
    ∧ (firstDeparture s p.val r.waiting 0 = none → Runs (.packetDeparture p) s s)
    ∧ (∀ (chip flow : W16) (due : Nat) (n : BitVec 12), sGet none (chipFlow chip flow) r.resend = some (due, n) → due ≤ s.nowNs →
      let again (t : TxPacket) : Bool := t.pk.destChip == chip && t.pk.flow == flow && atOrBefore n t.pk.fseq
      Runs (.nakRetransmit p chip flow) s (putRoute s p.val { r with
        retained := r.retained.filter fun t => !again t
        waiting := r.retained.filter again ++ r.waiting
        resend := sPut none (chipFlow chip flow) none r.resend
        retransmits := r.retransmits + BitVec.ofNat 64 (r.retained.filter again).length }))
    ∧ (∀ (chip flow : W16) (t : TxPacket), r.retained = [t] → isLate s p.val chip flow t = true →
      ∃ u, Runs (.e2eTimeout p chip flow) s u ∧ (getRoute u p.val).retained = []
        ∧ (getRoute u p.val).waiting = { t with tries := t.tries + 1 } :: r.waiting ∧ (getRoute u p.val).retransmits = r.retransmits + 1)
    ∧ (∀ chip : W16, partExists s p.val = true → chip.toNat < 4096 → chip ≠ s.links.chip → unreachableDue s p.val chip = true →
        sGet false chip.toNat r.unreach = false →
      ∃ u, Runs (.peerUnreachable p chip) s u ∧ sGet false chip.toNat (getRoute u p.val).unreach = true
        ∧ (∀ t ∈ (getRoute u p.val).retained ++ (getRoute u p.val).waiting, t.pk.destChip = chip → t.transit = true)
        ∧ (sGet {} (srcPart p.val 6) u.events.sources).line = true))
  ∧ (∀ (s : State) (port : PortNo) (chip flow : W16) (n : BitVec 12) (t : TxPacket) (m : BitVec 8) (g : BitVec 6),
    let k := port.val
    let p := portOwner s k
    let f := getFlow s k (chipFlow chip flow)
    (getPort s k).state = 2 → p ≠ 0 → replaying s p = false →
    ((getRoute s p).retained = [t] → t.pk.destChip = chip → t.pk.flow = flow → t.origin = .thread m g →
      (getTag s m.toNat g.toNat).valid = true → (getTag s m.toNat g.toNat).reply = none →
      (atOrBefore t.pk.fseq n = true → t.pk.last = true → t.pk.cls = 0 →
        ∃ u, Runs (.e2eAck port chip flow n) s u ∧ (getRoute u p).retained = [] ∧ (getTag u m.toNat g.toNat).reply = some 0)
      ∧ (∀ st : Byte, t.pk.fseq = n → t.pk.last = true →
        ∃ u, Runs (.nak port chip flow n 3 st) s u ∧ (getRoute u p).retained = [] ∧ (getTag u m.toNat g.toNat).reply = some st)
      ∧ (∀ st : Byte, t.pk.fseq = n → ∀ reason : BitVec 2, reason = 0 ∨ reason = 1 →
        ∃ u, Runs (.nak port chip flow n reason st) s u ∧ sGet none (chipFlow chip flow) (getRoute u p).resend = some (s.nowNs + 1000, n)
          ∧ (getTag u m.toNat g.toNat).reply = none)
      ∧ (∀ st : Byte, t.pk.fseq = n → t.pk.first = true →
        ∃ u, Runs (.nak port chip flow n 2 st) s u ∧ sGet none (chipFlow chip flow) (getRoute u p).resend = some (s.nowNs, n)
          ∧ (getRoute u p).retained = [{ t with tries := 0, pk := { t.pk with flowStart := true } }]))
    ∧ (flowIdle f s.nowNs = true → Runs (.flowEntryExpiry port chip flow) s (putFlow k (chipFlow chip flow) {} s))
    ∧ (e2eAckDue f s.nowNs = true →
        ∃ u w, Runs (.e2eAcknowledgementTimer port chip flow) s u ∧ (getRoute u p).waiting = (getRoute s p).waiting ++ [w]
          ∧ w.pk.cls = 8 ∧ w.pk.destChip = chip ∧ w.pk.flow = flow ∧ w.pk.fseq = f.expected - 1
          ∧ getFlow u k (chipFlow chip flow) = { f with sinceAck := 0, ackAt := s.nowNs }))
  ∧ (∀ (s : State) (t1 t2 t3 t4 : Int),
    (syncDue s = true → Runs (.timeSyncExchange t1 t2 t3 t4) s { s with
      rackNs := BitVec.ofInt 64 ((s.rackNs.toNat : Int) + ((t2 - t1) - (t4 - t3)) / 2)
      links := { s.links with syncState := 0, lastSync := s.nowNs } })
    ∧ (syncDue s = false → Runs (.timeSyncExchange t1 t2 t3 t4) s s))

/-! ## Ingest and management ports -/

/-- R312 to R316: a request of four words starts its slot and sends a READ; payload lands in local memory and completes the request with its
last byte; an error ends it; silence reads again up to 8 times; reading its status frees the slot; a frame that no slot awaits counts as
dropped. R312, R410, R416: What the ingest and management ports answer and count, the management link, and the dynamic I3C address. -/
def Obligations.SpoolRequestsAndFrames : Prop :=
  (∀ (s : State) (port : PortNo) (slot : Fin 64),
     let k := port.val
     let i := slot.val
     let q := getPort s k
     let x := getSlot s k i
     let n := bits 7 0 x.w3.toNat
     let buf := bits 25 8 x.w3.toNat
     (∀ (by_ : Requester) (w0 w1 w2 w3 : W64), isShuttle by_ = true → portFitted s.fuses.variant k = true →
       mayReach s (.port k (0x2000 + 32 * i)) by_ = true → x.state ≠ 1 → q.mode = 1 → replaying s (portOwner s k) = false →
       let y : SpoolSlot := { x with w0 := w0 &&& 0xFF0F, w1 := w1, w2 := w2, w3 := w3 &&& 0xFFFFFFFFFFF }
       spoolLegal s k y = true →
       ∃ u, Runs (.spoolRequest by_ port slot w0 w1 w2 w3) s u
         ∧ getSlot u k i = { y with state := 1, tries := 1, error := 0, received := 0, count := x.count + 1, got := [], since := s.nowNs }
         ∧ (getPort u k).reads = q.reads ++ [{
             server := BitVec.ofNat 4 w0.toNat, requestId := BitVec.ofNat 32 (i + (x.count + 1).toNat * 64), object := w1
             offset := w2, length := BitVec.ofNat 32 (spoolLength y) }]
         ∧ u.shuttles = s.shuttles ∧ u.tiles = s.tiles ∧ u.parts = s.parts)
     ∧ (∀ (by_ : Requester) (o : Nat), o = 0x300010000000 + k * 0x100000 + 0x3000 + 8 * i → regionFor s by_ o = .port k (0x3000 + 8 * i) →
       mayReach s (.port k (0x3000 + 8 * i)) by_ = true →
       ∃ u, Runs (.spoolStatusRead by_ port slot) s u ∧ u.reply = ⟨BitVec.ofNat 32 (statusTo by_ 0), leBytes 8 (spoolStatus x).toNat⟩
         ∧ getSlot u k i = (if x.state = 2 ∨ x.state = 3 then { x with state := 0 } else x) ∧ u.shuttles = s.shuttles)
     ∧ (q.state = 5 → replaying s (portOwner s k) = false →
       (∀ id : W32, slotOf s k id = some i →
         (∀ (off : W64) (d : Bytes), d ≠ [] → d.length ≤ 8192 → x.w2.toNat ≤ off.toNat → off.toNat - x.w2.toNat + d.length ≤ spoolLength x →
           let got := markGot (off.toNat - x.w2.toNat) d.length x.got
           ∃ u, Runs (.spoolDataFrame port id off d (crc32c d)) s u
             ∧ (∀ j, j < d.length → sGet 0 (buf + (off.toNat - x.w2.toNat) + j) (getShuttle u n).mem = d.getD j 0)
             ∧ (getSlot u k i).received = BitVec.ofNat 32 got.length ∧ (getSlot u k i).got = got
             ∧ (getSlot u k i).state = (if spoolLength x ≤ got.length then 2 else 1))
         ∧ (∀ code : W32, ∃ u, Runs (.spoolErrorFrame port id code) s u ∧ (getSlot u k i).state = 3
             ∧ (getSlot u k i).error = code.setWidth 24 ∧ (getShuttle u n).mem = (getShuttle s n).mem))
       ∧ (∀ (id : W32) (off : W64) (d : Bytes) (c : W32), slotOf s k id = none →
           Runs (.spoolDataFrame port id off d c) s (putPort s k { q with rxDrops := q.rxDrops + 1 })
           ∧ Runs (.spoolErrorFrame port id c) s (putPort s k { q with rxDrops := q.rxDrops + 1 })))
     ∧ (x.state = 1 → x.since + 500000 ≤ s.nowNs → replaying s (portOwner s k) = false →
       (x.tries.toNat < 8 → ∃ u, Runs (.spoolRetryTimeout port slot) s u
         ∧ getSlot u k i = { x with tries := x.tries + 1, since := s.nowNs }
         ∧ (getPort u k).reads = q.reads ++ (missingChunks x).map fun c => {
             server := BitVec.ofNat 4 x.w0.toNat, requestId := BitVec.ofNat 32 (i + x.count.toNat * 64), object := x.w1
             offset := x.w2 + BitVec.ofNat 64 c.1, length := BitVec.ofNat 32 c.2 })
       ∧ (8 ≤ x.tries.toNat → ∃ u, Runs (.spoolRetryTimeout port slot) s u ∧ (getSlot u k i).state = 3 ∧ (getSlot u k i).error = 0xFFFFFF)))
  ∧ ((∀ (s : State) (port : PortNo) (target source : W128) (payload : Bytes),
     let k := port.val
     (ingestHas s k target = true →
       Runs (.neighborSolicitation port target source) s
         (putOut (.port k (beBytes 16 target.toNat ++ beBytes 6 (getPort s k).mac.toNat)) s)
       ∧ Runs (.echoRequest port target source payload) s (putOut (.port k payload) s))
     ∧ (ingestHas s k target = false →
       Runs (.neighborSolicitation port target source) s s ∧ Runs (.echoRequest port target source payload) s s)
     ∧ ((getPort s k).state = 5 → Runs (.pauseFrame port true) s (putPort s k { getPort s k with pauses := (getPort s k).pauses + 1 }))
     ∧ Runs (.pauseFrame port false) s s)
   ∧ (∀ (s : State) (v6 : Bool) (target : W128) (payload : Bytes) (up : Bool) (a : BitVec 7),
     (s.pack.pins.inReset = false → mgmtHas s v6 target = true →
       Runs (.mgmtEchoRequest v6 target payload) s (putOut (.echo payload) s)
       ∧ Runs (.mgmtAddressResolution v6 target) s (putOut (.resolution target) s))
     ∧ (s.pack.pins.inReset = false →
       (∃ u, Runs .mgmtFrameDiscard s u ∧ u.pack.io.discarded = s.pack.io.discarded + 1 ∧ u.parts = s.parts ∧ u.sec = s.sec)
       ∧ (∃ u, Runs (.dynamicAddressAssignment a) s u ∧ u.pack.io.i3cDyn = a.setWidth 8 ∧ u.parts = s.parts ∧ u.sec = s.sec))
     ∧ (∃ u, Runs (.mgmtLinkChange up) s u ∧ u.pack.io.mgmtLink = (if up then 1 else 0) ∧ u.parts = s.parts ∧ u.sec = s.sec)))

/-! ## Clocks, power and partitions -/

/-- R350 to R357, R362: monitors report, change points decide on a change, the switch makes it; a fourth sample in a row above the power limit sets protection, which a write of 0 ends; the limit and the shares are written within the budget. -/
def Obligations.ClocksAndPower : Prop :=
  (∀ (s : State) (k : RegionNo) (codes : W16) (celsius : Byte),
    let q := getRegion s k.val
    k.val / 32 < diesOf s.fuses.variant →
    ∃ u, Runs (.monitorReport k codes celsius) s u
      ∧ (getRegion u k.val).monitors = codes ∧ (getRegion u k.val).temperature = celsius
      ∧ (getRegion u k.val).least.toNat = min q.least.toNat (leastCode codes) ∧ (getRegion u k.val).state = q.state
      ∧ (∀ j, j ≠ k.val → getRegion u j = getRegion s j) ∧ u.parts = s.parts ∧ u.tiles = s.tiles)
  ∧ (∀ (s : State) (p : PartNo),
    let c := (getPart s p.val).clock
    let h := hold s p.val
    let n := h.sBeat / 8192
    let rs := regionsOfPart s p.val
    let demand := rs.any fun r => regionDemands (getRegion s r)
    (partExists s p = true → atChangePoint s p.val = true →
      ∃ u, Runs (.changePoint p) s u ∧ (getPart u p.val).clock.decided = n
        ∧ (getPart u p.val).clock.beat = c.beat
        ∧ (∀ r ∈ rs, (getRegion u r).least = 15 ∧ (getRegion u r).zero = false)
        ∧ (demand = true → c.pending = none → (getPart s p.val).active.floor.toNat < c.beat.toNat → c.beat.toNat ≤ ceilingOf s p.val →
            (getPart u p.val).clock.pending = some (BitVec.ofNat 8 (c.beat.toNat - 1)) ∧ (getPart u p.val).clock.due = BitVec.ofNat 64 (n + 2))
        ∧ (c.pending = none → ceilingOf s p.val < c.beat.toNat → (getPart s p.val).active.floor.toNat ≤ c.beat.toNat →
            (getPart u p.val).clock.pending = some (BitVec.ofNat 8 (ceilingOf s p.val)))
        ∧ u.tiles = s.tiles ∧ u.shuttles = s.shuttles)
    ∧ (∀ w v, c.changeFrom = some w → c.switched = false → w + h.hlat.toNat + 96 ≤ h.wBeat → c.pending = some v →
      (changeDisturbed h w = false → c.due.toNat ≤ c.decided + 1 →
        ∃ u, Runs (.beatSwitch p) s u ∧ (getPart u p.val).clock.beat = v ∧ (getPart u p.val).clock.pending = none
          ∧ (getPart u p.val).clock.lastChange = BitVec.ofNat 64 (w + h.hlat.toNat + 96)
          ∧ (getPart u p.val).clock.up = c.up + (if c.beat.toNat < v.toNat then 1 else 0)
          ∧ (getPart u p.val).clock.down = c.down + (if c.beat.toNat < v.toNat then 0 else 1) ∧ u.tiles = s.tiles)
      ∧ (changeDisturbed h w = true →
        ∃ u, Runs (.beatSwitch p) s u ∧ (getPart u p.val).clock = { c with switched := true, deferred := c.deferred + 1 })))
  ∧ (∀ (s : State) (watts : W16),
    let w := s.pack.power
    (watts.toNat ≤ powerLimit s → ∃ u, Runs (.powerSample watts) s u ∧ u.pack.power = { w with package := watts, above := 0 } ∧ u.sec = s.sec)
    ∧ (powerLimit s < watts.toNat → w.above = 3 → w.protect = 0 →
      ∃ u, Runs (.powerSample watts) s u ∧ u.pack.power.protect = 1 ∧ u.pack.power.events = w.events + 1 ∧ u.pack.power.package = watts
        ∧ (sGet {} 0x300 u.events.sources).line = true))
  ∧ (∀ (s : State) (r : Role) (watts : W16),
    (Passes s r 0x2200 5 [0] → ∃ u, Audited (.powerProtectClear r) s r 0x2200 5 1 [0] u ∧ u.pack.power = { s.pack.power with protect := 0 })
    ∧ (Passes s r 0x2200 1 (leBytes 2 watts.toNat) → envelopeW s.fuses.variant ≤ watts.toNat * 4 → watts.toNat ≤ envelopeW s.fuses.variant →
      budgetHolds (setPower s fun w => { w with limit := some watts }) = true →
      ∃ u, Audited (.powerLimitWrite r none watts) s r 0x2200 1 1 (leBytes 2 watts.toNat) u
        ∧ u.pack.power = { s.pack.power with limit := some watts })
    ∧ (∀ p : PartNo, Passes s r (0x2310 + p.val) 9 (leBytes 2 watts.toNat) →
      budgetHolds (updClock s p.val fun c => { c with share := watts }) = true →
      ∃ u, Audited (.powerLimitWrite r (some p) watts) s r (0x2310 + p.val) 9 1 (leBytes 2 watts.toNat) u
        ∧ (getPart u p.val).clock = { (getPart s p.val).clock with share := watts }))

/-- R368 to R376: a commit that no check refuses makes every staged configuration active and counts; a refused one leaves them; a discard
takes the active ones; a saved partition's copy ends; and the host reads through its window. -/
def Obligations.ConfigurationsCommit : Prop :=
  (∀ (s : State) (r : Role),
    (Passes s r 0x3000 1 [1] → s.sec.config.state = 0 → configRefusal s = none →
      ∃ u, Audited (.configCommit r) s r 0x3000 1 2 [1] u
        ∧ (∀ p ∈ partNumbers, (getPart u p).active = (getPart s p).staged ∧ (getPart u p).staged = (getPart s p).staged)
        ∧ u.sec.config.generation = s.sec.config.generation + 1 ∧ u.sec.config.refusal = []
        ∧ (sGet {} 0x308 u.events.sources).line = true)
    ∧ (Passes s r 0x3000 1 [2] →
      ∃ u, Audited (.configDiscard r) s r 0x3000 1 2 [2] u
        ∧ (∀ p ∈ partNumbers, getPart u p = { getPart s p with staged := (getPart s p).active })
        ∧ u.sec.config = s.sec.config ∧ u.tiles = s.tiles ∧ u.hbm = s.hbm)
    ∧ (∀ code p d, accessCheck s r 0x3000 1 true = 0 → auditBlocked s = false → s.sec.config.state = 0 → configRefusal s = some (code, p, d) →
        code ≠ 0 →
      ∃ u, Runs (.configCommit r) s u ∧ u.reply.status = BitVec.ofNat 32 code ∧ u.parts = s.parts ∧ u.tiles = s.tiles ∧ u.hbm = s.hbm
        ∧ u.sec.config = { s.sec.config with refusal := leBytes 8 (code + p * 2 ^ 32) ++ leBytes 8 d }))
  ∧ (∀ (s : State) (p : PartNo),
    (sGet 0 p.val s.sec.config.moves ≠ 0 → (∀ g, g < 32 → ownerOf s g = p.val ∨ bitAt g (sGet 0 p.val s.sec.config.moves).toNat = false) →
      ∃ u, Runs (.saveMoveComplete p) s u ∧ u.sec.config.moves = sPut 0 p.val 0 s.sec.config.moves
        ∧ u.sec.config.state = (if (sPut 0 p.val 0 s.sec.config.moves).isEmpty then 0 else 2)
        ∧ u.tiles = s.tiles ∧ u.hbm = s.hbm ∧ u.parts = s.parts)
    ∧ (sGet 0 p.val s.sec.config.moves = 0 → Runs (.saveMoveComplete p) s s))
  ∧ (∀ (s : State) (f : FuncNo) (o : BitVec 28) (size : Nat),
    let at_ := (getMailbox s f.val).winBase.toNat * 2 ^ 28 + o.toNat
    s.pack.pins.inReset = false → s.pack.pins.perst = false →
    (waitsForBank s (.host f) at_ size = none →
      let a := readOffset (.host f) at_ size .clean s
      Runs (.hostWindowAccess f o size none .clean) s (answer (statusTo (.host f) a.1.status) a.1.data a.2))
    ∧ (∀ (d : Bytes) (m off : Nat), replaying s f.val = false → regionFor s (.host f) at_ = .shuttleMem m off →
        mayReach s (.shuttleMem m off) (.host f) = true →
      ∃ u, Runs (.hostWindowAccess f o size (some d) .clean) s u ∧ getShuttle u m = localWrite off d false (getShuttle s m)
        ∧ (∀ j, j ≠ m → getShuttle u j = getShuttle s j) ∧ u.tiles = s.tiles))

/-! ## Credentials, approved mode, seals, attestation, the audit log and firmware -/

/-- R381, R383, R387, R393, R395 to R397: the installer's key is written, signed, or unsigned in the delivered state alone; a legal grant is
registered, zeros end it, and it ends at its expiry with event 0x30B. The approved mode changes with every partition unloaded, and gives
the HBM of every quadrant a new key; zeroisation ends every credential, key and record; a module failure halts every partition; a service
slot seals one record. -/
def Obligations.CredentialsAndModule : Prop :=
  (∀ (s : State) (r : Role),
     (∀ key : Bytes, allZero key = false →
       (Passes s .installer 0x1100 1 key →
         ∃ u, Audited (.installerKeyWrite true key) s .installer 0x1100 1 1 key u ∧ u.sec.roles = { s.sec.roles with installerKey := key }
           ∧ (s.sec.caerec.sealKey ≠ [] → u.sec.caerec = s.sec.caerec) ∧ u.parts = s.parts ∧ u.hbm = s.hbm)
       ∧ (s.pack.start.complete = true → moduleDown s = false → allZero s.sec.roles.installerKey = true → auditBlocked s = false →
           key.length = 97 → s.sec.caerec.sealKey = [] →
         ∃ u, Audited (.installerKeyWrite false key) s .none 0x1100 1 1 key u ∧ u.sec.roles = { s.sec.roles with installerKey := key }
           ∧ u.sec.caerec.sealKey.length = 97 ∧ u.parts = s.parts ∧ u.hbm = s.hbm)
       ∧ (s.pack.start.complete = true → moduleDown s = false → allZero s.sec.roles.installerKey = false →
         ∃ u, Runs (.installerKeyWrite false key) s u ∧ u.reply.status = 0xD103000A ∧ u.sec.roles = s.sec.roles
           ∧ u.sec.caerec = s.sec.caerec ∧ u.parts = s.parts))
     ∧ (∀ g : Bytes, Passes s r 0x1100 2 g → allZero g = false →
       (grantRefusal g s = 0 →
         Audited (.makerGrantWrite r g) s r 0x1100 2 1 g { s with sec := { s.sec with roles := { s.sec.roles with grant := g } } })
       ∧ (∀ code, code ≠ 0 → grantRefusal g s = code →
         ∃ u, Runs (.makerGrantWrite r g) s u ∧ u.reply.status = BitVec.ofNat 32 code ∧ u.sec.roles = s.sec.roles ∧ u.parts = s.parts))
     ∧ (∀ g : Bytes, Passes s r 0x1100 2 g → allZero g = true →
       ∃ u, Audited (.makerGrantWrite r g) s r 0x1100 2 1 g u ∧ u.sec.roles = { s.sec.roles with grant := [] })
     ∧ (s.sec.roles.grant ≠ [] → ofLe (bytesAt s.sec.roles.grant 48 8) ≤ s.rackNs.toNat →
       ∃ u, Runs .grantExpiry s u ∧ u.sec = { s.sec with roles := { s.sec.roles with grant := [] } }
         ∧ (sGet {} 0x30B u.events.sources).line = true ∧ u.parts = s.parts ∧ u.pack = s.pack)
     ∧ (s.rackNs.toNat < ofLe (bytesAt s.sec.roles.grant 48 8) → Runs .grantExpiry s s))
  ∧ (∀ (s : State) (r : Role),
     (Passes s r 0x3100 3 [1] → allUnloaded s = true → approvable s = true →
       ∃ u, Audited (.approvedModeEnter r) s r 0x3100 3 2 [1] u ∧ u.sec.caerec = { s.sec.caerec with approved := true } ∧ Rekeyed s u
         ∧ u.parts = s.parts ∧ u.sec.roles = s.sec.roles ∧ u.tiles = s.tiles)
     ∧ (Passes s r 0x3100 3 [2] → allUnloaded s = true →
       ∃ u, Audited (.approvedModeLeave r) s r 0x3100 3 2 [2] u ∧ u.sec.caerec = { s.sec.caerec with approved := false } ∧ Rekeyed s u
         ∧ u.parts = s.parts ∧ u.sec.roles = s.sec.roles ∧ u.tiles = s.tiles)
     ∧ (Passes s r 0x3100 3 [3] → allUnloaded s = true →
       ∃ u, Audited (.zeroise r) s r 0x3100 3 2 [3] u ∧ u.sec.roles = {} ∧ u.sec.audit = {} ∧ u.sec.caerec.sealKey = []
         ∧ u.sec.caerec.journalKey = [] ∧ u.pack.start.journal = [] ∧ Rekeyed s u ∧ u.tiles = s.tiles
         ∧ ∀ p ∈ partNumbers, (getPart u p).active.key = [] ∧ (getPart u p).staged.key = [] ∧ (getPart u p).opNonce = 0
             ∧ (getPart u p).pattern = (getPart s p).pattern)
     ∧ (s.pack.pins.inReset = false → s.sec.caerec.state = 0 →
       ∃ u, Runs .moduleError s u ∧ u.sec.caerec = { s.sec.caerec with state := 2, failures := s.sec.caerec.failures + 1 }
         ∧ u.pack.pins.status = 14 ∧ (sGet {} 0x305 u.events.sources).line = true ∧ Rekeyed s u ∧ u.tiles = s.tiles
         ∧ (∀ p ∈ partNumbers, (getPart s p).active.quads ≠ 0 → (stepOf u p).state = 6 ∧ (hold u p).stepRuns = false)
         ∧ (∀ p ∈ partNumbers, (getPart s p).active.quads = 0 → getPart u p = getPart s p))
     ∧ (∀ p, s.sec.caerec.slot.val + 1 = p → p ≤ 16 → s.pack.start.complete = true → moduleDown s = false →
       let e := (getPart s p).seals
       (∀ (m : Bytes) (rest : List Bytes), e.queue = m :: rest →
         ∃ u sig, ModuleSig sig ∧ Runs .caerecServiceSlot s u ∧ (getPart u p).seals.queue = rest
           ∧ (getPart u p).seals.sealed = (e.sealed ++ [m ++ sig ++ List.replicate 8 0]).drop (e.sealed.length + 1 - 64)
           ∧ (getPart u p).seals.count = e.count + 1 ∧ (sGet {} (srcPart p 7) u.events.sources).line = true
           ∧ u.sec = { s.sec with caerec := { s.sec.caerec with slot := s.sec.caerec.slot + 1 } })
       ∧ (e.queue = [] → Runs .caerecServiceSlot s { s with sec := { s.sec with caerec := { s.sec.caerec with slot := s.sec.caerec.slot + 1 } } })))

/-- R389, R394, R399: a report holds the nonce written last and is signed; exported records are noted, the head is signed on request; and
what the three firmware commands do with a bundle. -/
def Obligations.AttestationAuditAndFirmware : Prop :=
  ∀ (s : State) (r : Role),
    (∀ n : Bytes, Passes s r 0x3110 1 n →
      Audited (.attestNonceWrite r n) s r 0x3110 1 1 n { s with sec := { s.sec with caerec := { s.sec.caerec with nonce := n } } })
    ∧ (accessCheck s r 0x3110 2 false = 0 → r ≠ .maker →
      ∃ body sig, Runs (.attestReportRead r) s (answer 0 (body ++ sig) { s with freeCount := s.freeCount + 1 }) ∧ ModuleSig sig
        ∧ body.length = 472 ∧ body.take 4 = [0x41, 0x54, 0x53, 0x54] ∧ bytesAt body 16 8 = leBytes 8 s.fuses.serial.toNat
        ∧ bytesAt body 40 48 = bytesAt s.sec.caerec.nonce 0 48)
    ∧ (∀ n : W64, Passes s r 0x1200 4 (leBytes 8 n.toNat) → n.toNat ≤ s.sec.audit.headNumber.toNat →
      ∃ u, Audited (.auditExportedToWrite r n) s r 0x1200 4 1 (leBytes 8 n.toNat) u
        ∧ (oldestExported { s.sec.audit with exportedTo := n } = false → u.sec.audit = { s.sec.audit with exportedTo := n })
        ∧ u.sec.audit.exportedTo = n ∧ u.sec.audit.headNumber = s.sec.audit.headNumber ∧ u.parts = s.parts)
    ∧ (Passes s r 0x1200 5 (List.replicate 152 0) →
      ∃ u sig, ModuleSig sig ∧ Audited (.auditAnchorRequest r) s r 0x1200 5 1 (List.replicate 152 0) u ∧ u.parts = s.parts
        ∧ u.sec.audit = { s.sec.audit with
            anchor := leBytes 8 s.sec.audit.headNumber.toNat ++ bytesAt s.sec.audit.headChain 0 48 ++ sig })
    ∧ (let w := s.sec.fw
      (Passes s r 0x3300 2 [1] →
        (bundleOk s w.stage = true → w.rollback.toNat ≤ (bundleSvn w.stage).toNat →
          ∃ u, Audited (.firmwareVerify r) s r 0x3300 2 2 [1] u ∧ u.sec = { s.sec with fw := { w with state := 1 } })
        ∧ (bundleOk s w.stage = false → ∃ u, Runs (.firmwareVerify r) s u ∧ u.reply.status = 0xD103000E ∧ u.sec.fw = w))
      ∧ (Passes s r 0x3300 2 [2] → w.state = 2 ∨ w.state = 3 →
        Audited (.firmwareMarkActive r) s r 0x3300 2 2 [2] { s with sec := { s.sec with fw := { w with state := 3, marked := true } } })
      ∧ (Passes s r 0x3300 2 [3] →
        Audited (.firmwareCancel r) s r 0x3300 2 2 [3]
          { s with sec := { s.sec with fw := { w with state := 0, marked := false, stagedSvn := 0, stage := [] } } }))

/-! ## Reset -/

/-- R362, R384, R406, R420, R461: before the first start the package is in reset with RESET# and PERST# asserted, holds no credential, no key
and no record, no partition has a quadrant, memory and tables list nothing, events are held off and no command waits. Clock bounds and
throttle stand at their defaults. Where the spec gives no value, zero is the model's choice (log 4). -/
def Obligations.ResetState : Prop :=
  let s := State.reset
  s.pending = [] ∧ s.tiles = [] ∧ s.sides = [] ∧ s.shuttles = [] ∧ s.hbm = [] ∧ s.laces = [] ∧ s.net = [] ∧ s.routes = []
  ∧ s.pack.pins.inReset = true ∧ s.pack.pins.resetPin = true ∧ s.pack.pins.perst = true ∧ s.pack.pins.vaux = false ∧ s.pack.pins.status = 0
  ∧ s.pack.start.number = 0 ∧ s.pack.start.complete = false ∧ s.pack.start.journal = []
  ∧ s.sec.roles = {} ∧ s.sec.caerec.sealKey = [] ∧ s.sec.caerec.journalKey = [] ∧ s.sec.caerec.approved = false ∧ s.sec.audit.kept = []
  ∧ s.events.holdoff = true ∧ s.events.ibiMask = 0x23 ∧ s.links.period = 1000000
  ∧ ∀ p : Nat, (getPart s p).active.quads = 0 ∧ (getPart s p).active.floor = 18 ∧ (getPart s p).active.ceiling = 18
      ∧ (getPart s p).clock.throttle = 100 ∧ (getPart s p).hold.limit = 0x1000000 ∧ (stepOf s p).retryLimit = 2

/-! ## The dictionary -/

/-- R402 to R415: each of the seven operations of a well-formed frame that passes its checks is answered, code 0, with its effect. -/
def Obligations.FramesAreServed : Prop :=
  ∀ (s s1 : State) (tr : Transport) (f : DxpFrame) (base u : Nat) (e : Entry),
    let ix := f.index.toNat
    let sub := f.subindex.toNat
    let r := roleOf f
    let d := frameData f
    (Heard s tr f 1 base u e → passChecks tr f false s = (0, s1) → segmented tr e = false → r ≠ .maker →
      Runs (.dxpRead tr f) s (respond tr f 0 false (entryValue r base u sub s1).1 (entryValue r base u sub s1).2))
    ∧ (∀ s2, Heard s tr f 2 base u e → firstKey s tr f = false → passChecks tr f true s = (0, s1) → segmented tr e = false →
        EntryWritten s1 r ix sub d s2 → s2.pack.pins.flash.length ≤ s1.pack.pins.flash.length →
      Runs (.dxpWrite tr f) s (respond tr f 0 false [] (auditAppend (writeRecord (some tr) r ix sub d) s2)))
    ∧ (∀ last v s3, Heard s tr f 3 base u e → (getSession s tr).transfer = none → f.offset = 0 → passChecks tr f false s = (0, s1) →
        segmented tr e = true → r ≠ .maker →
        let t := newTransfer s1 f false 0 []
        openLace (setTransfer tr (some t) s1) ix sub = none →
        segmentBytes r ix sub 0 (wantedBytes tr f) (setTransfer tr (some t) s1) = (0, last, v, s3) →
      Runs (.dxpSegmentRead tr f) s (respond tr f 0 last v
        (setTransfer tr (if last then none else some { t with next := v.length, since := s3.nowNs }) s3)))
    ∧ (Heard s tr f 4 base u e → passChecks tr f true s = (0, s1) → segmented tr e = true → (getSession s1 tr).transfer = none →
      Runs (.dxpWriteInitiate tr f) s (respond tr f 0 false []
        (setTransfer tr (some (newTransfer s1 f true (ofLe (d.take 4)) (d.drop 4))) s1)))
    ∧ (∀ t, Heard s tr f 5 base u e → (getSession s tr).transfer = some t → t.write = true → t.index = f.index → t.sub = f.subindex →
        t.next = f.offset.toNat → t.next + d.length ≤ t.total →
      (isLast f = false → Runs (.dxpSegmentWrite tr f) s (respond tr f 0 false []
          (setTransfer tr (some { t with next := t.next + d.length, data := t.data ++ d, since := s.nowNs }) s)))
      ∧ (∀ s2, isLast f = true → t.next + d.length = t.total → sha384 (t.data ++ d) = t.digest →
          EntryWritten (setTransfer tr none s) t.role ix sub (t.data ++ d) s2 → s2.pack.pins.flash.length ≤ s.pack.pins.flash.length →
        Runs (.dxpSegmentWrite tr f) s (respond tr f 0 false [] (auditAppend (writeRecord (some tr) t.role ix sub (t.data ++ d)) s2)))
      ∧ (isLast f = true → t.next + d.length = t.total → sha384 (t.data ++ d) ≠ t.digest →
        ∃ v, Runs (.dxpSegmentWrite tr f) s v ∧ v.reply.status = 0xD101000D ∧ (getSession v tr).transfer = none ∧ v.parts = s.parts))
    ∧ (Heard s tr f 6 base u e → Runs (.dxpDescribe tr f) s (respond tr f 0 false (describeBytes s base u sub e) s))
    ∧ (Heard s tr f 7 base u e → Runs (.dxpCancel tr f) s (respond tr f 0 false [] (setTransfer tr none s)))

/-- R381, R411, R413 to R415, R417, R418: what is no frame is discarded and counted, a bad one and a reserved value are refused, a request
repeated is answered again and executed no second time; a transfer ends after 10 s; the mailbox, the reduced form of I3C, a register by
its offset, an entry by its name, and the hold-off. -/
def Obligations.RequestsOfOtherForms : Prop :=
  (∀ (s : State) (tr : Transport) (f : DxpFrame), ∀ c ∈ dxpRows, f.op.toNat = c.2 → s.pack.pins.inReset = false → tr ≠ .i3c →
    let x := getSession s tr
    (noFrame f = true → ∃ u, Runs (c.1 tr f) s u ∧ u.pack.io.discarded = s.pack.io.discarded + 1 ∧ u.sec = s.sec ∧ u.parts = s.parts)
    ∧ (noFrame f = false → x.executing = none → x.lastReq = none → transferLate s x = false → badFrame tr f = true →
        Runs (c.1 tr f) s (respond tr f 0xD101000B false [] s))
    ∧ (noFrame f = false → x.executing = none → x.lastReq = some f →
        ∃ u, Runs (c.1 tr f) s u ∧ u.sec = s.sec ∧ u.parts = s.parts ∧ u.tiles = s.tiles ∧ u.hbm = s.hbm ∧ u.shuttles = s.shuttles
          ∧ ∀ a p, tr = .mgmt a p → u.pack.io.outbox = s.pack.io.outbox ++ [.mgmt a p x.lastResp]))
  ∧ (∀ (s : State) (tr : Transport) (t : Transfer), (getSession s tr).transfer = some t →
    (t.since + 10000000000 ≤ s.nowNs → Runs (.dxpTransferTimeout tr) s (setTransfer tr none s))
    ∧ (s.nowNs < t.since + 10000000000 → Runs (.dxpTransferTimeout tr) s s))
  ∧ (∀ (s : State) (sub : Byte) (ix off : W16) (base u : Nat) (e : Entry),
    s.pack.pins.inReset = false → transferLate s (getSession s .i3c) = false → indexOf ix.toNat = some (base, u) →
    entryOf base sub.toNat = some e →
    (presentCheck s ix.toNat sub.toNat false = 0 →
      Runs (.i3cRequest 6 sub ix off) s (answer 0 (describeBytes s base u sub.toNat e) (countAnswer 0 s)))
    ∧ (presentCheck s ix.toNat sub.toNat true = 0 → i3cReads ix.toNat = true → segmented .i3c e = false →
      let v := entryValue .none base u sub.toNat s
      Runs (.i3cRequest 1 sub ix off) s (answer 0 v.1 (countAnswer 0 v.2)))
    ∧ Runs (.i3cRequest 2 sub ix off) s (answer 0xD101000B [] (countAnswer 0xD101000B s)))
  ∧ (∀ (s : State) (f : FuncNo) (len : BitVec 13),
    let m := getMailbox s f.val
    let b := readBytes 0 m.request 0 (min len.toNat 4096)
    let rung := updMailbox f.val (fun m => { m with doorbell := len, state := 1 }) s
    s.pack.pins.inReset = false → s.pack.pins.perst = false → f.val = 0 ∨ functionOpen s f.val = true →
    (m.state ≠ 1 → 32 ≤ len.toNat → Runs (.mbDoorbell f len) s (receive (.pcie f) (parseFrame b) rung))
    ∧ (m.state ≠ 1 → len.toNat < 32 → ∃ u, Runs (.mbDoorbell f len) s u ∧ u.pack.io.discarded = s.pack.io.discarded + 1
        ∧ u.pack.io.outbox = s.pack.io.outbox ∧ u.parts = s.parts)
    ∧ (m.state = 1 → ∃ u, Runs (.mbDoorbell f len) s u ∧ u.pack.io.discarded = s.pack.io.discarded + 1 ∧ getMailbox u f.val = m))
  ∧ (∀ (s : State) (r : Role),
    (∀ (ix : W16) (sub : Byte) (v : Bytes) (s2 : State), EntryWritten s r ix.toNat sub.toNat v s2 →
      Runs (.registerWrite (.dxp r) (.entry ix sub) v) s (answer 0 [] (auditAppend (writeRecord none r ix.toNat sub.toNat v) s2)))
    ∧ (∀ (n : ShuttleNo) (t : ThreadNo) (o : BitVec 48) (v : Bytes) (m off : Nat),
      regionFor s (.shuttle n t) o.toNat = .shuttleMem m off → mayReach s (.shuttleMem m off) (.shuttle n t) = true →
      ∃ u, Runs (.registerWrite (.shuttle n t) (.offset o v.length) v) s u ∧ getShuttle u m = localWrite off v false (getShuttle s m)
        ∧ (∀ j, j ≠ m → getShuttle u j = getShuttle s j) ∧ u.tiles = s.tiles ∧ u.hbm = s.hbm)
    ∧ (∀ v : Bool, Passes s r 0x7000 1 [if v then 1 else 0] →
      Audited (.holdoffWrite r v) s r 0x7000 1 1 [if v then 1 else 0] { s with events := { s.events with holdoff := v } }))

/-! ## Events -/

/-- R420, R422: a clock applies one write, makes every source pending whose line is up, and, events not held off, serves the ring of its
number: the lowest eligible source becomes active and its record is due 16 clocks later; a ring without room counts and takes none. R423 to R425, R427, R429: The record due first is written with its notice; and what the writes of the controller's and the rings'
registers do. -/
def Obligations.EventControllerAndRings : Prop :=
  (∀ s : State,
     let c := s.events.clock
     (∀ w rest, s.events.writes = w :: rest → s.events.holdoff = true →
       ∃ u, Runs .eventControllerClock s u ∧ u.events.clock = c + 1 ∧ u.events.writes = rest ∧ u.events.assembly = s.events.assembly
         ∧ u.events.rings = s.events.rings ∧ (∀ i, getSource u i = pend (afterWrite s w i (getSource s i))) ∧ u.parts = s.parts ∧ u.pack = s.pack)
     ∧ (s.events.writes = [] → s.events.holdoff = false →
       let r := c % 17
       let g := getRing s r
       ∃ u, Runs .eventControllerClock s u ∧ u.events.clock = c + 1 ∧ u.parts = s.parts ∧ u.pack = s.pack
         ∧ (ringKind g = 0 ∨ eligible (setPendings s) r = none → u.events.assembly = s.events.assembly ∧ ∀ i, getSource u i = pend (getSource s i))
         ∧ (∀ i, ringKind g ≠ 0 → eligible (setPendings s) r = some i → ringRoom g = true →
             let e := pend (getSource s i)
             u.events.assembly = s.events.assembly ++ [{
               due := c + 16, ring := Fin.ofNat 17 r, source := BitVec.ofNat 10 i, multiple := e.multiple, rack := s.rackNs, detail := e.detail
               sBeat := if r = 0 then 0 else BitVec.ofNat 64 (hold s r).sBeat }]
             ∧ getSource u i = { e with pending := false, active := true, multiple := false, line := (i = 0x304 ∨ i = 0x305) && e.line }
             ∧ (∀ j, j ≠ i → getSource u j = pend (getSource s j)) ∧ u.events.rings = s.events.rings)
         ∧ (∀ i, ringKind g ≠ 0 → eligible (setPendings s) r = some i → ringRoom g = false →
             u.events.assembly = s.events.assembly ∧ (getRing u r).full.toNat = min (g.full.toNat + 1) 65535
             ∧ ∀ j, getSource u j = pend (getSource s j))))
  ∧ ((∀ (s : State) (a : Assembly) (rest : List Assembly),
     let r := a.ring.val
     let g := getRing s r
     let ws := recordWords g a
     let next := (g.tail.toNat + 1) % 2 ^ ringLog2 g
     s.events.assembly = a :: rest →
     (s.events.clock < a.due → Runs .eventRecordWrite s s)
     ∧ (a.due ≤ s.events.clock → replaying s r = false → (getPart s r).recd.state ≠ 1 → ringKind g ≠ 0 →
       ∃ u, Runs .eventRecordWrite s u ∧ u.events.assembly = rest ∧ u.events.sources = s.events.sources ∧ u.parts = s.parts
         ∧ (getRing u r).tail.toNat = next % 4096 ∧ (getRing u r).seq = g.seq + 1 ∧ (getRing u r).records = g.records + 1
         ∧ (getRing u r).lap = (if next = 0 then !g.lap else g.lap) ∧ (getRing u r).head = g.head
         ∧ (∀ j, j ≠ r → getRing u j = getRing s j)
         ∧ (ringKind g = 3 → ∀ i, i < 4 → ∀ w, ws[i]? = some w → (sGet 0 (4 * g.tail.toNat + i) (getRing u r).store : W64) = w)
         ∧ (ringKind g = 1 → (getMailbox s r).masked = false → u.pack.io.outbox = s.pack.io.outbox
             ++ [.hostWrite r (g.base + BitVec.ofNat 64 (32 * g.tail.toNat)) (ws.flatMap fun w => leBytes 8 w.toNat)]
             ++ (if g.tail = g.head then [.msix r] else []))))
   ∧ (∀ (s : State) (via : EvPath) (b : BitVec 1024) (n : BitVec 10),
     let path := evPath via
     let wrote (c : Instr) (w : CtlWrite) (h : Shadows) : Prop :=
       ∃ u, Runs c s u ∧ u.events.writes = s.events.writes ++ [w] ∧ getShadow u path = h ∧ (∀ q, q ≠ path → getShadow u q = getShadow s q)
         ∧ u.events.sources = s.events.sources ∧ u.events.rings = s.events.rings ∧ u.parts = s.parts ∧ u.pack = s.pack
     wrote (.enableSet via b) (.enableSet path b) { getShadow s path with enableSet := b }
     ∧ wrote (.enableClear via b) (.enableClear path b) { getShadow s path with enableClear := b }
     ∧ wrote (.pendingSet via b) (.pendingSet path b) { getShadow s path with pendingSet := b }
     ∧ wrote (.pendingClear via b) (.pendingClear path b) { getShadow s path with pendingClear := b }
     ∧ wrote (.complete via n) (.complete path n) { getShadow s path with complete := n.setWidth 16 })
   ∧ (∀ (s : State) (r : FuncNo) (v : W64),
     let g := getRing s r.val
     let ringAs (g : Ring) : State := { s with events := { s.events with rings := sPut {} r.val g s.events.rings } }
     (bits 1 0 v.toNat + bits 19 4 v.toNat * 16 = v.toNat →
       (ringLegal s r.val v.toNat g.base.toNat = true → bits 1 0 v.toNat ≠ 0 → ringKind g = 0 →
         Runs (.ringCfgWrite r v) s (answer 0 [] (ringAs { g with cfg := v, head := 0, tail := 0, lap := false, seq := 0, store := [] })))
       ∧ (bits 1 0 v.toNat = 0 → ringKind g ≠ 2 → Runs (.ringCfgWrite r v) s (answer 0 [] (ringAs { g with cfg := v, store := [] })))
       ∧ (ringLegal s r.val v.toNat g.base.toNat = true → bits 1 0 v.toNat ≠ 0 → ringKind g ≠ 0 → v ≠ g.cfg →
         Runs (.ringCfgWrite r v) s (answer 0xD1070002 [] s))
       ∧ (ringLegal s r.val v.toNat g.base.toNat = false → Runs (.ringCfgWrite r v) s (answer 0xD1070001 [] s)))
     ∧ (ringKind g = 0 → ringExists s r.val = true → Runs (.ringBaseWrite r v) s (answer 0 [] (ringAs { g with base := v })))
     ∧ (ringKind g ≠ 0 → v ≠ g.base → Runs (.ringBaseWrite r v) s (answer 0xD1070002 [] s))
     ∧ (∀ h : BitVec 12,
       (ringKind g = 0 ∨ ringKind g = 3 → Runs (.ringHeadWrite r h) s (ringAs { g with head := h }))
       ∧ (ringKind g = 1 → (getMailbox s r.val).masked = false → ∃ u, Runs (.ringHeadWrite r h) s u ∧ getRing u r.val = { g with head := h }
           ∧ u.pack.io.outbox = s.pack.io.outbox ++ (if h = g.tail then [] else [.msix r.val])))))

/-! ## Debug holds, snapshots, knots by hand, readback, recording and replay -/

/-- R430 to R441: the debug commands raise, arm, release and step; a snapshot starts and ends; a knot takes a value by hand; and words of
a partition's memory are read and written through a window. -/
def Obligations.DebugAndReadback : Prop :=
  (∀ (s : State) (r : Role) (p : PartNo),
    let ix := 0xA100 + p.val
    let d := debugOf s p.val
    let h := hold s p.val
    let n := d.argument.toNat
    let st := stepState s p.val
    (Passes s r ix 1 [1] → st = 2 ∨ st = 5 → h.debug = false →
      ∃ u, Audited (.holdNow r p) s r ix 1 2 [1] u ∧ hold u p.val = { h with debug := true, debugAt := h.wBeat }
        ∧ debugOf u p.val = { d with state := 1, since := s.nowNs, command := 1 } ∧ u.tiles = s.tiles ∧ u.shuttles = s.shuttles)
    ∧ (accessCheck s r ix 1 true = 0 → auditBlocked s = false → st ≠ 2 → st ≠ 5 →
      ∃ u, Runs (.holdNow r p) s u ∧ u.reply.status = 0xD10A0001 ∧ u.parts = s.parts)
    ∧ (Passes s r ix 1 [2] → st = 2 ∨ st = 5 →
      (fixedBeats h ≤ n → ∃ u, Audited (.holdAtSBeat r p) s r ix 1 2 [2] u ∧ hold u p.val = h
        ∧ debugOf u p.val = { d with target := some n, state := if h.debug then d.state else 1, command := 2 })
      ∧ (n < fixedBeats h → ∃ u, Runs (.holdAtSBeat r p) s u ∧ u.reply.status = 0xD10A0002 ∧ u.parts = s.parts))
    ∧ (partExists s p = true → h.debug = false →
      (d.target = some (fixedBeats h) → ∃ u, Runs (.debugFreeze p) s u ∧ hold u p.val = { h with debug := true, debugAt := h.wBeat }
        ∧ (debugOf u p.val).state = 1 ∧ u.tiles = s.tiles)
      ∧ (d.target ≠ some (fixedBeats h) → Runs (.debugFreeze p) s s))
    ∧ (Passes s r ix 1 [3] → h.debug = true → h.frozen = false →
      ∃ u, Audited (.debugRelease r p) s r ix 1 2 [3] u ∧ hold u p.val = { h with debug := false, counted := 0 }
        ∧ debugOf u p.val = { d with state := if d.target.isSome then 1 else 0, command := 3 }
        ∧ (stepOf u p.val).heldNs = (stepOf s p.val).heldNs + (s.nowNs - max d.since (stepOf s p.val).startNs))
    ∧ (Passes s r ix 1 [4] → st = 2 ∨ st = 5 → 1 ≤ n → n < 2 ^ 32 → h.debug = true → h.frozen = false → fixedBeats h ≤ h.sBeat + n →
      ∃ u, Audited (.debugStep r p) s r ix 1 2 [4] u ∧ hold u p.val = { h with debug := false, counted := 0 }
        ∧ debugOf u p.val = { d with state := 1, target := some (h.sBeat + n), command := 4 })
    ∧ (Passes s r ix 1 [5] → underDebug s p.val = true → snapRefusal s p.val = 0 →
      maintBlocked s (saveActivity s p.val) = false →
      ∃ u, Audited (.snapshot r p) s r ix 1 2 [5] u ∧ (debugOf u p.val).state = 3 ∧ (debugOf u p.val).snapW = h.wBeat
        ∧ ActivityRuns s u (saveActivity s p.val) ∧ u.tiles = s.tiles ∧ u.shuttles = s.shuttles ∧ u.sides = s.sides)
    ∧ (d.state = 3 → (snapQuadsOf s p.val).any (fun g => (getLace s g).capturePending) = false → s.pack.maint.waiting = [] →
      ∃ u, Runs (.snapshotDone p) s u ∧ (debugOf u p.val).state = 2 ∧ (sGet {} (srcDebug p.val 1) u.events.sources).line = true
        ∧ u.pack.maint.active = s.pack.maint.active.filter (· ≠ saveActivity s p.val) ∧ u.tiles = s.tiles)
    ∧ (d.state ≠ 3 → Runs (.snapshotDone p) s s)
    ∧ (∀ (a v : W64) (x y k : Nat), Passes s r ix 9 (leBytes 8 a.toNat ++ leBytes 8 v.toNat) → underDebug s p.val = true → h.debug = true →
      handleIsHere s a = true → reaches s p.val (classify s.fuses.variant (bits 47 0 a.toNat)) = true →
      homeOf (classify s.fuses.variant (bits 47 0 a.toNat)) = .tileKnot x y k → bits 33 32 v.toNat = 0 →
      ∃ u, Audited (.knotSet r p a v) s r ix 9 1 (leBytes 8 a.toNat ++ leBytes 8 v.toNat) u
        ∧ (sGet {} k (getTile u (tileKey x y)).knots : Knot) = { (sGet {} k (getTile s (tileKey x y)).knots : Knot) with
            count := BitVec.ofNat 16 (bits 15 0 v.toNat), gen := BitVec.ofNat 16 (bits 31 16 v.toNat), state := 0, owner := 0, ownerTile := false }
        ∧ (∀ j, j ≠ tileKey x y → getTile u j = getTile s j) ∧ u.shuttles = s.shuttles))
  ∧ (∀ (s : State) (r : Role) (w : FuncNo) (off m q : Nat),
    let ix := 0xA010 + w.val
    let o := (getReadback s w.val).base.toNat + off
    (getReadback s w.val).base.toNat % 8 = 0 → off % 8 = 0 → regionFor s (.dxp r) o = .shuttleMem m q →
    (accessCheck s r ix 2 false = 0 → r ≠ .maker → readbackRefusal s r o = 0 →
      ∃ u, Runs (.readbackDataRead r w off 8 .clean) s u ∧ u.reply.status = 0 ∧ u.reply.data = bytesAt (localRead (getShuttle s m) q 8) 0 8
        ∧ u.shuttles = s.shuttles ∧ u.parts = s.parts)
    ∧ (∀ b : Bytes, b.length = 8 → Passes s r ix 2 b → readbackWriteRefusal s r o = 0 →
      ∃ u, Audited (.readbackDataWrite r w off b) s r ix 2 1 b u ∧ getShuttle u m = localWrite q b false (getShuttle s m)
        ∧ (∀ j, j ≠ m → getShuttle u j = getShuttle s j) ∧ u.tiles = s.tiles))

/-- R443 to R450: recording is armed, ended, imported and replayed; an input of a replay is applied again in its S-beat; a stalled replay
diverges. -/
def Obligations.RecordingAndReplay : Prop :=
  ∀ (s : State) (r : Role) (p : PartNo),
    let ix := 0xB010 + p.val
    let q := recOf s p.val
    let alone (u : State) : Prop := u.tiles = s.tiles ∧ u.shuttles = s.shuttles ∧ u.sec = s.sec ∧ stepOf u p.val = stepOf s p.val
    (Passes s r ix 1 [1] → q.state ≠ 1 → q.state ≠ 2 → q.arming = false →
      (recordAreaFree s p.val = true →
        ∃ u, Audited (.recordArm r p) s r ix 1 2 [1] u ∧ recOf u p.val = { q with arming := true, command := 1 } ∧ alone u)
      ∧ (recordAreaFree s p.val = false → ∃ u, Runs (.recordArm r p) s u ∧ u.reply.status = 0xD10B0002 ∧ u.parts = s.parts))
    ∧ (Passes s r ix 1 [2] →
      ∃ u, Audited (.recordEnd r p) s r ix 1 2 [2] u ∧ alone u
        ∧ recOf u p.val = (if q.state = 1 then { q with ending := true, command := 2 } else { q with arming := false, command := 2 }))
    ∧ (Passes s r ix 1 [3] →
      (∀ t, startReplay p.val s = (0, t) →
        ∃ u, Audited (.replayStart r p) s r ix 1 2 [3] u ∧ (recOf u p.val).state = 2 ∧ (recOf u p.val).command = 3
          ∧ (stepOf u p.val).state = 2 ∧ (hold u p.val).stepRuns = true
          ∧ (stepOf u p.val).target = BitVec.ofNat 64 (ofLe (bytesAt (recordBytes s p.val 0 256) 232 8)))
      ∧ (q.state = 1 ∨ q.state = 2 → ∃ u, Runs (.replayStart r p) s u ∧ u.reply.status = 0xD10B0001 ∧ u.parts = s.parts))
    ∧ (Passes s r ix 1 [4] → q.state = 2 →
      ∃ u, Audited (.replayAbandon r p) s r ix 1 2 [4] u ∧ alone u
        ∧ recOf u p.val = { q with state := 0, consumed := [], waiting := [], command := 4 } ∧ (hold u p.val).stampAt = none)
    ∧ (∀ b : Bytes, Passes s r ix 5 b →
      (q.state ≠ 1 → q.state ≠ 2 → b.length ≤ q.areaBytes.toNat →
        ∃ u, Audited (.recordDataWrite r p b) s r ix 5 1 b u ∧ recOf u p.val = { q with used := b.length } ∧ alone u
          ∧ u.hbm = (writeHbm (lowestQuad s p.val) q.areaOffset.toNat b false s).hbm)
      ∧ (q.state = 1 ∨ q.state = 2 → ∃ u, Runs (.recordDataWrite r p b) s u ∧ u.reply.status = 0xD10B0001 ∧ u.hbm = s.hbm))
    ∧ (∀ i e rest, replaying s p.val = true → stampsLeft s p.val = (i, e) :: rest →
      (stepOffset s p.val = e.offset → inStep s p.val = true →
        Runs (.replayStampedInput p) s (armStamp p.val (consume p.val i (applyInput p.val e s))))
      ∧ (stepOffset s p.val ≠ e.offset → Runs (.replayStampedInput p) s s))
    ∧ (replaying s p.val = false → Runs (.replayStampedInput p) s s)
    ∧ (replayStalls s p.val = true →
      ∃ u, Runs (.replayStall p) s u ∧ (recOf u p.val).state = 5 ∧ (recOf u p.val).divergedMask = BitVec.ofNat 64 (2 ^ 34)
        ∧ (recOf u p.val).divergedStep = (stepOf s p.val).counter.setWidth 64 ∧ (hold u p.val).debug = true
        ∧ (sGet {} (srcDebug p.val 2) u.events.sources).line = true ∧ u.tiles = s.tiles ∧ u.shuttles = s.shuttles)
    ∧ (replayStalls s p.val = false → Runs (.replayStall p) s s)

/-! ## Maintenance -/

/-- R452 to R454, R464: a maintenance command's activity runs, or waits for those it would disturb; a scheduled one starts when its time has
come; an activity's end takes it from the list and does what it is for; flash commands complete, or fail and leave the old value. -/
def Obligations.MaintenanceActivities : Prop :=
  (∀ (s : State) (r : Role),
    let begins (c : Instr) (die v : Nat) (a : Running) : Prop :=
      Passes s r (0xA500 + die) 3 (leBytes 4 v) →
        (maintBlocked s a = false → ∃ u, Audited c s r (0xA500 + die) 3 2 (leBytes 4 v) u ∧ ActivityRuns s u a
          ∧ sGet 0 die u.pack.maint.command = BitVec.ofNat 32 v ∧ u.tiles = s.tiles ∧ u.hbm = s.hbm ∧ u.parts = s.parts)
        ∧ (maintBlocked s a = true → ∃ u, Audited c s r (0xA500 + die) 3 2 (leBytes 4 v) u ∧ ActivityWaits s u a
          ∧ u.tiles = s.tiles ∧ u.hbm = s.hbm ∧ u.parts = s.parts ∧ u.links = s.links)
    (∀ (die : DieNo) (ch : Fin 32),
      begins (.hbmScrub r die ch) die.val (ch.val * 256) (channelActivity s .scrub die.val ch.val)
      ∧ begins (.hbmRetraining r die ch) die.val (1 + ch.val * 256) (channelActivity s .retrain die.val ch.val))
    ∧ (∀ k : PortNo, (getPort s k.val).state ≠ 0 → portFitted s.fuses.variant k.val = true →
      begins (.portRetraining r k) (k.val / 3) (2 + k.val * 256) (portActivity k.val))
    ∧ (∀ g : QuadNo, ownerOf s g.val = 0 ∨ stepState s (ownerOf s g.val) = 0 →
      begins (.tileMemorySelfTest r g) (g.val / 4) (4 + g.val * 256) (selfTestActivity g.val))
    ∧ (∀ (g : QuadNo) (ff : Bool), accessCheck s r (0x6010 + g.val) (if ff then 9 else 8) false = 0 → r ≠ .maker → underTest s g.val = false →
      let a := { laceActivity g.val with target := g.val + if ff then 256 else 0 }
      maintBlocked s a = false →
      ∃ u, Runs (.laceworkReadback r g ff) s u ∧ u.reply.status = 0 ∧ ActivityRuns s u a ∧ u.tiles = s.tiles ∧ u.parts = s.parts
        ∧ (ff = true → (getLace s g.val).state = 2 → (getLace u g.val).capturePending = true)))
  ∧ (∀ (s : State) (die : DieNo),
    (∀ k v, nextScheduled s die.val = some (k, v) → s.pack.start.complete = true →
      (k / 4096 ≤ s.rackNs.toNat → ∃ u, Runs (.maintScheduleFire die) s u ∧ (sGet 0 die.val u.pack.maint.fired : Nat) = k + 1
        ∧ u = (maintCommand die.val v (setMaint s fun m => { m with fired := sPut 0 die.val (k + 1) m.fired })).2)
      ∧ (s.rackNs.toNat < k / 4096 → Runs (.maintScheduleFire die) s s))
    ∧ (∀ (a : Activity) (ok : Bool) (ps : List TileAt), runningOn s die.val a = none → Runs (.maintActivityEnd die a ok ps) s s)
    ∧ (∀ (a : Running) (ok : Bool) (ps : List TileAt), a.activity = .scrub → runningOn s die.val .scrub = some a → s.pack.maint.waiting = [] →
      let g := die.val * 4 + a.target / 8
      (∀ e ∈ (getHbm s g).errors, e.2 = .corrected) →
      ∃ u, Runs (.maintActivityEnd die .scrub ok ps) s u ∧ u.pack.maint.active = s.pack.maint.active.filter (· ≠ a)
        ∧ (getHbm u g).bytes = (getHbm s g).bytes
        ∧ (getHbm u g).errors = (getHbm s g).errors.filter (fun e => e.1 / 8 % 8 ≠ a.target % 8)
        ∧ (∀ j, j ≠ g → getHbm u j = getHbm s j) ∧ u.tiles = s.tiles ∧ u.parts = s.parts))
  ∧ (∀ (s : State) (op : FlashOp) (rest : List FlashOp), s.pack.pins.flash = op :: rest → (∀ e ∈ s.pack.io.sessions, e.2.executing = none) →
    (∃ u, Runs .spiGrant s u ∧ u.pack.pins = { s.pack.pins with flash := rest, spiReq := !rest.isEmpty } ∧ u.sec = s.sec ∧ u.links = s.links)
    ∧ (∀ ix sub old, op = .settings ix sub old →
      ∃ u, Runs .spiGrantTimeout s u ∧ u.pack.pins.flash = rest ∧ u.reply.status = 0xD101000F
        ∧ u.sec = (restoreStored ix.toNat sub.toNat old s).sec ∧ u.links = (restoreStored ix.toNat sub.toNat old s).links
        ∧ u.parts = (restoreStored ix.toNat sub.toNat old s).parts))

/-! ## Pins, rails, clocks and the start -/

/-- R310, R311, R396, R459 to R469, R474, R476: what each pin, rail and clock does. -/
def Obligations.PinsRailsAndClocks : Prop :=
  ∀ s : State,
    let q := s.pack.pins
    let pinsAs (q : Pins) : State := { s with pack := { s.pack with pins := q } }
    let straps (v : Straps) : Byte := BitVec.ofNat 8 (v.traySlot.toNat + v.i3cAddr.toNat * 4)
    (∀ v : Straps,
      (q.vaux = false → Runs (.vauxInRange v) s (pinsAs { q with straps := straps v, vaux := true, causeReg := 1, startDue := !q.resetPin }))
      ∧ (q.resetPin = true →
        Runs (.resetDeassert v) s (pinsAs { q with straps := straps v, resetPin := false, startDue := q.inReset && q.vaux && !q.thermtrip })))
    ∧ (q.vaux = true → q.inReset = true → Runs .vauxLost s
        (pinsAs { q with vaux := false, causeReg := 1, thermtrip := false, startDue := false, status := 0, jtag := .bypass }))
    ∧ (q.flash = [] → q.inReset = false →
      (q.vaux = true → ∃ u, Runs .vauxLost s u ∧ EntersReset s u 1 0 ∧ u.pack.pins.vaux = false)
      ∧ (∀ lowUs, 1000 ≤ lowUs → ∃ u, Runs (.resetAssert lowUs) s u ∧ EntersReset s u 2 0 ∧ u.pack.pins.resetPin = true ∧ u.pack.pins.thermtrip = false)
      ∧ (∀ rail, ∃ u, Runs (.railBrownOut rail) s u ∧ EntersReset s u 3 0)
      ∧ (∃ u, Runs .thermalTrip s u ∧ EntersReset s u 4 15 ∧ u.pack.pins.thermtrip = true ∧ u.pack.pins.trips = q.trips + 1)
      ∧ (∀ c : RefClk, ∃ u, Runs (.refclkLost c) s u ∧ EntersReset s u 5 0
          ∧ u.pack.pins.refclks = q.refclks &&& (match c with | .pkg => 0xE | .mgmt => 0xD)))
    ∧ (∀ lowUs, lowUs < 100 → Runs (.resetAssert lowUs) s (pinsAs { q with resetPin := true, startDue := false }))
    ∧ (q.inReset = true → q.vaux = true → q.resetPin = false → q.thermtrip = false → q.causeReg ≠ 0 →
      (q.causeReg ≠ 2 → Runs .autoRestart s (pinsAs { q with startDue := true, refclks := q.refclks ||| 3 }))
      ∧ (q.causeReg = 2 → Runs .autoRestart s s))
    ∧ (q.inReset = false →
      (∃ u, Runs .rackRefclkLost s u ∧ u.links = { s.links with syncState := 2, pulsed := true } ∧ u.pack.pins = { q with refclks := q.refclks &&& 0xB }
        ∧ (sGet {} 0x307 u.events.sources).line = true)
      ∧ (∃ u, Runs .rackRefclkReturn s u ∧ u.pack.pins = { q with refclks := q.refclks ||| 4 }
        ∧ u.links.syncState = (if s.links.role = 1 ∧ s.links.syncPort = 15 then 0 else 1) ∧ u.rackNs = s.rackNs)
      ∧ (q.perst = false → ∃ u, Runs .perstAssert s u ∧ u.pack.pins = { q with perst := true } ∧ u.pack.io.pcieLink = 0 ∧ u.parts = s.parts
          ∧ u.tiles = s.tiles ∧ (∀ e ∈ u.pack.io.sessions, isPcie e.1 = false))
      ∧ (∀ rate width : Byte, q.perst = true → 10 ≤ s.pack.start.phase.toNat →
          Runs (.perstDeassert rate width) s { s with pack := { s.pack with pins := { q with perst := false }
                                                                            io := { s.pack.io with pcieLink := width ++ rate } } })
      ∧ (s.links.role = 0 → s.links.period ≠ 0 →
          let n := s.links.period.toNat
          ∃ u, Runs .stepInEdge s u ∧ u.links.syncState = 0 ∧ u.rackNs = BitVec.ofNat 64 ((s.rackNs.toNat + n / 2) / n * n)
            ∧ u.pack = s.pack ∧ u.parts = s.parts)
      ∧ (s.links.role = 0 → s.links.pulsed = false → s.links.lastEdge + 2 * s.links.period.toNat ≤ s.nowNs →
          ∃ u, Runs .pulseLost s u ∧ u.links = { s.links with syncState := 2, pulsed := true } ∧ (sGet {} 0x307 u.events.sources).line = true
            ∧ u.rackNs = s.rackNs)
      ∧ (s.links.role = 1 → s.links.period ≠ 0 →
          Runs .stepPulse s { s with links := { s.links with stepOut := decide (s.rackNs.toNat % s.links.period.toNat < 100) } }))
    ∧ (let jtagAs (i : JtagInstr) : State := pinsAs { q with jtag := i }
      Runs (.jtagInstruction .bypass) s (jtagAs .bypass) ∧ Runs (.jtagInstruction .idcode) s (jtagAs .idcode)
      ∧ (scanBlocked s = true → Runs (.jtagInstruction .extest) s (jtagAs .bypass))
      ∧ (scanBlocked s = false → Runs (.jtagInstruction .extest) s (jtagAs .extest))
      ∧ ∀ c, (s.sec.caerec.approved = true ∨ s.sec.roles.grant = [] → Runs (.jtagInstruction (.vendorPrivate c)) s (jtagAs .bypass))
        ∧ (s.sec.caerec.approved = false → s.sec.roles.grant ≠ [] → Runs (.jtagInstruction (.vendorPrivate c)) s (jtagAs (.vendorPrivate c))))

/-- R358 to R366, R399: a start that may begin begins with P1 and counts; a failure of a phase that every start needs stops it, and so does
the end of its time; a stopped start is tried again, goes on past a unit that may be skipped, or begins anew. -/
def Obligations.StartsAndStoppedStarts : Prop :=
  ∀ (s : State) (outs : List PhaseOutcome),
    (mayStart s = true →
      (Hangs outs 1 0 → ∃ u, Runs (.start outs) s u ∧ StartBegun s u)
      ∧ (∀ o, (outs.find? fun o => o.phase.val == 1 && o.unit.val == 0) = some o → o.hang = false → o.ok = false →
        ∃ u, Runs (.start outs) s u ∧ StartStopped u 1 0 ∧ (startOf u).number = (startOf s).number + 1 ∧ u.pack.pins.inReset = false)
      ∧ (outs = [] → ∃ u, Runs (.start outs) s u ∧ (startOf u).state = 1 ∧ (startOf u).complete = true ∧ u.pack.pins.status = 12
          ∧ (sGet {} 0x302 u.events.sources).line = true))
    ∧ (mayStart s = false → Runs (.start outs) s s)
    ∧ (∀ n i, (startOf s).hung = some (n, i) → s.pack.pins.inReset = false → neverSkipped n i = true →
      ∃ u, Runs (.phaseBoundExpiry outs) s u ∧ StartStopped u n i ∧ (startOf u).hung = none)
    ∧ ((startOf s).hung = none → Runs (.phaseBoundExpiry outs) s s)
    ∧ (∀ r : Role, (startOf s).state = 2 →
      (Passes s r 0x2000 4 [1] → ∀ n i : Nat, (startOf s).phase.toNat = n → (startOf s).stoppedUnit.toNat = i → Hangs outs n i →
        ∃ u, Audited (.startCommandRetry r outs) s r 0x2000 4 2 [1] u ∧ (startOf u).state = 0 ∧ (startOf u).hung = some (n, i)
          ∧ u.pack.pins.status = BitVec.ofNat 4 n ∧ (startOf u).number = (startOf s).number)
      ∧ (Passes s r 0x2000 4 [2] →
        (neverSkipped (startOf s).phase.toNat (startOf s).stoppedUnit.toNat = true →
          ∃ u, Runs (.startCommandSkip r outs) s u ∧ u.reply.status = 0xD1020003 ∧ startOf u = startOf s)
        ∧ ((startOf s).phase = 10 → (startOf s).stoppedUnit = 0 → Hangs outs 11 0 →
          ∃ u, Audited (.startCommandSkip r outs) s r 0x2000 4 2 [2] u ∧ (startOf u).state = 0 ∧ (startOf u).phase = 11
            ∧ (startOf u).hung = some (11, 0)))
      ∧ (Passes s r 0x2000 4 [3] → Hangs outs 1 0 →
        ∃ u, Audited (.startCommandRestart r outs) s r 0x2000 4 2 [3] u ∧ StartBegun s u))
end

