-- ==== Sys2Proof/WellFormed.lean ====
section
/-! DEFINITION. Which commands are well formed: sizes and lengths that the types of the operands leave open (log 11). -/

namespace Sys2Proof

/-- What can be wrong with a command's operands. -/
inductive Ill
  | accessSize      -- a window access of a size R64 or R199 does not have
  | accessOffset    -- a window access not aligned to its size, or leaving its window
  | keyLength       -- a public key that is not 97 bytes
  | nonceLength     -- a nonce that is not 48 bytes
  | grantLength     -- a grant shorter than its fixed part (R383)
  | blobLength      -- a dictionary value of the wrong length
  | payloadLength   -- a packet or frame whose payload is too long for its fields
  | sectorLength    -- data of a sector that is not 32 bytes
  | bankNumber      -- an HBM bank that no channel has
  deriving DecidableEq, Repr

def bad (b : Bool) (i : Ill) : List Ill := if b then [i] else []

/-- R64: 4 or 8 bytes, aligned, or up to 64 bytes as 8-byte words. -/
def accessProblems (offset size : Nat) : List Ill :=
  bad (!(size == 4 || (size % 8 == 0 && 8 ≤ size && size ≤ 64))) .accessSize
    ++ bad (offset % (if size = 4 then 4 else 8) ≠ 0 || 16384 < offset + size) .accessOffset

def sectorProblems : SectorOutcome → List Ill
  | .beyondMiscorrected d => bad (d.length ≠ 32) .sectorLength
  | .beyondMissed d => bad (d.length ≠ 32) .sectorLength
  | _ => []

/-- What is wrong with a command; nothing when it is well formed. -/
def problems : Instr → List Ill
  | .tileWindowRead _ _ o n => accessProblems o.toNat n
  | .tileWindowWrite _ _ o d => accessProblems o.toNat d.length
  | .hbmAccessComplete _ _ _ o => sectorProblems o
  | .lightPathComplete _ _ _ o => sectorProblems o
  | .requestCompletion _ _ o => sectorProblems o
  | .hostWindowAccess _ _ _ _ o => sectorProblems o
  | .readbackDataRead _ _ _ _ o => sectorProblems o
  | .hbmRefresh _ _ b => bad (64 ≤ b) .bankNumber
  | .laneMapWrite _ m => bad (m.length ≠ 48) .blobLength
  | .packetReceive _ pk _ => bad (1024 < pk.payload.length || pk.payload.length ≠ pk.length.toNat) .payloadLength
  | .unreachableChipsWrite _ _ b => bad (b.length ≠ 512) .blobLength
  | .spoolDataFrame _ _ _ d _ => bad (8192 < d.length) .payloadLength
  | .installerKeyWrite _ k => bad (k.length ≠ 97) .keyLength
  | .makerGrantWrite _ g => bad (g ≠ [] && g.length < 160) .grantLength
  | .attestNonceWrite _ n => bad (n.length ≠ 48) .nonceLength
  | .registerWrite _ (.offset _ n) v => bad (n ≠ v.length) .accessSize
  | _ => []

/-- The command is well formed. -/
def wf (i : Instr) : Bool := (problems i).isEmpty

end Sys2Proof
end

