-- ==== Sys2Proof/Laws/PerInstr.lean ====
section
/-! SUPPORT. For every command: it is well formed exactly when no check refuses it. -/

namespace Sys2Proof.Laws

/-- A command is well formed exactly when none of its operands has a problem. -/
def Checks.Statement (i : Instr) : Prop := wf i = true ↔ ∀ p : Ill, p ∉ problems i

theorem checks_all (i : Instr) : Checks.Statement i := by
  unfold Checks.Statement wf
  rw [List.isEmpty_iff, List.eq_nil_iff_forall_not_mem]

theorem Checks.vauxInRange (a1 : Straps) : Checks.Statement (.vauxInRange a1) := checks_all _
theorem Checks.resetAssert (a1 : Nat) : Checks.Statement (.resetAssert a1) := checks_all _
theorem Checks.resetDeassert (a1 : Straps) : Checks.Statement (.resetDeassert a1) := checks_all _
theorem Checks.railBrownOut (a1 : Rail) : Checks.Statement (.railBrownOut a1) := checks_all _
theorem Checks.thermalTrip : Checks.Statement (.thermalTrip) := checks_all _
theorem Checks.refclkLost (a1 : RefClk) : Checks.Statement (.refclkLost a1) := checks_all _
theorem Checks.rackRefclkLost : Checks.Statement (.rackRefclkLost) := checks_all _
theorem Checks.rackRefclkReturn : Checks.Statement (.rackRefclkReturn) := checks_all _
theorem Checks.autoRestart : Checks.Statement (.autoRestart) := checks_all _
theorem Checks.perstAssert : Checks.Statement (.perstAssert) := checks_all _
theorem Checks.perstDeassert (a1 : Byte) (a2 : Byte) : Checks.Statement (.perstDeassert a1 a2) := checks_all _
theorem Checks.stepInEdge : Checks.Statement (.stepInEdge) := checks_all _
theorem Checks.stepPulse : Checks.Statement (.stepPulse) := checks_all _
theorem Checks.pulseLost : Checks.Statement (.pulseLost) := checks_all _
theorem Checks.spiGrantTimeout : Checks.Statement (.spiGrantTimeout) := checks_all _
theorem Checks.jtagInstruction (a1 : JtagInstr) : Checks.Statement (.jtagInstruction a1) := checks_all _
theorem Checks.start (a1 : List PhaseOutcome) : Checks.Statement (.start a1) := checks_all _
theorem Checks.phaseBoundExpiry (a1 : List PhaseOutcome) : Checks.Statement (.phaseBoundExpiry a1) := checks_all _
theorem Checks.startCommandRetry (a1 : Role) (a2 : List PhaseOutcome) : Checks.Statement (.startCommandRetry a1 a2) := checks_all _
theorem Checks.startCommandSkip (a1 : Role) (a2 : List PhaseOutcome) : Checks.Statement (.startCommandSkip a1 a2) := checks_all _
theorem Checks.startCommandRestart (a1 : Role) (a2 : List PhaseOutcome) : Checks.Statement (.startCommandRestart a1 a2) := checks_all _
theorem Checks.executingWBeat (a1 : PartNo) : Checks.Statement (.executingWBeat a1) := checks_all _
theorem Checks.heldWBeat (a1 : PartNo) : Checks.Statement (.heldWBeat a1) := checks_all _
theorem Checks.idleWord (a1 : TileAt) (a2 : BitVec 124) : Checks.Statement (.idleWord a1 a2) := checks_all _
theorem Checks.stopWord (a1 : TileAt) (a2 : BitVec 124) : Checks.Statement (.stopWord a1 a2) := checks_all _
theorem Checks.add (a1 : TileAt) (a2 : SRR) : Checks.Statement (.add a1 a2) := checks_all _
theorem Checks.sub (a1 : TileAt) (a2 : SRR) : Checks.Statement (.sub a1 a2) := checks_all _
theorem Checks.and (a1 : TileAt) (a2 : SRR) : Checks.Statement (.and a1 a2) := checks_all _
theorem Checks.or (a1 : TileAt) (a2 : SRR) : Checks.Statement (.or a1 a2) := checks_all _
theorem Checks.xor (a1 : TileAt) (a2 : SRR) : Checks.Statement (.xor a1 a2) := checks_all _
theorem Checks.shl (a1 : TileAt) (a2 : SRR) : Checks.Statement (.shl a1 a2) := checks_all _
theorem Checks.shr (a1 : TileAt) (a2 : SRR) : Checks.Statement (.shr a1 a2) := checks_all _
theorem Checks.sra (a1 : TileAt) (a2 : SRR) : Checks.Statement (.sra a1 a2) := checks_all _
theorem Checks.slt (a1 : TileAt) (a2 : SRR) : Checks.Statement (.slt a1 a2) := checks_all _
theorem Checks.sltu (a1 : TileAt) (a2 : SRR) : Checks.Statement (.sltu a1 a2) := checks_all _
theorem Checks.mul (a1 : TileAt) (a2 : SRR) : Checks.Statement (.mul a1 a2) := checks_all _
theorem Checks.addi (a1 : TileAt) (a2 : SRI) : Checks.Statement (.addi a1 a2) := checks_all _
theorem Checks.andi (a1 : TileAt) (a2 : SRI) : Checks.Statement (.andi a1 a2) := checks_all _
theorem Checks.ori (a1 : TileAt) (a2 : SRI) : Checks.Statement (.ori a1 a2) := checks_all _
theorem Checks.li (a1 : TileAt) (a2 : BitVec 4) (a3 : BitVec 14) : Checks.Statement (.li a1 a2 a3) := checks_all _
theorem Checks.lui (a1 : TileAt) (a2 : BitVec 4) (a3 : BitVec 14) : Checks.Statement (.lui a1 a2 a3) := checks_all _
theorem Checks.sld (a1 : TileAt) (a2 : SMem) : Checks.Statement (.sld a1 a2) := checks_all _
theorem Checks.sst (a1 : TileAt) (a2 : SMem) : Checks.Statement (.sst a1 a2) := checks_all _
theorem Checks.sldp (a1 : TileAt) (a2 : SPtr) : Checks.Statement (.sldp a1 a2) := checks_all _
theorem Checks.sstp (a1 : TileAt) (a2 : SPtr) : Checks.Statement (.sstp a1 a2) := checks_all _
theorem Checks.setp (a1 : TileAt) (a2 : BitVec 3) (a3 : BitVec 4) (a4 : BitVec 7) : Checks.Statement (.setp a1 a2 a3 a4) := checks_all _
theorem Checks.setps (a1 : TileAt) (a2 : BitVec 3) (a3 : BitVec 8) : Checks.Statement (.setps a1 a2 a3) := checks_all _
theorem Checks.setpr (a1 : TileAt) (a2 : BitVec 3) (a3 : BitVec 4) : Checks.Statement (.setpr a1 a2 a3) := checks_all _
theorem Checks.getp (a1 : TileAt) (a2 : BitVec 4) (a3 : BitVec 3) : Checks.Statement (.getp a1 a2 a3) := checks_all _
theorem Checks.jmp (a1 : TileAt) (a2 : BitVec 6) : Checks.Statement (.jmp a1 a2) := checks_all _
theorem Checks.bz (a1 : TileAt) (a2 : BitVec 4) (a3 : BitVec 6) : Checks.Statement (.bz a1 a2 a3) := checks_all _
theorem Checks.bnz (a1 : TileAt) (a2 : BitVec 4) (a3 : BitVec 6) : Checks.Statement (.bnz a1 a2 a3) := checks_all _
theorem Checks.jr (a1 : TileAt) (a2 : BitVec 4) : Checks.Statement (.jr a1 a2) := checks_all _
theorem Checks.swap (a1 : TileAt) (a2 : BitVec 6) : Checks.Statement (.swap a1 a2) := checks_all _
theorem Checks.loop (a1 : TileAt) (a2 : SLoop) : Checks.Statement (.loop a1 a2) := checks_all _
theorem Checks.mode (a1 : TileAt) (a2 : Mode) : Checks.Statement (.mode a1 a2) := checks_all _
theorem Checks.moder (a1 : TileAt) (a2 : BitVec 4) : Checks.Statement (.moder a1 a2) := checks_all _
theorem Checks.modeTakesEffect (a1 : TileAt) : Checks.Statement (.modeTakesEffect a1) := checks_all _
theorem Checks.push (a1 : TileAt) (a2 : BitVec 3) (a3 a4 : BitVec 4) : Checks.Statement (.push a1 a2 a3 a4) := checks_all _
theorem Checks.hoop (a1 : TileAt) (a2 : BitVec 4) : Checks.Statement (.hoop a1 a2) := checks_all _
theorem Checks.rdsb (a1 : TileAt) (a2 : BitVec 4) : Checks.Statement (.rdsb a1 a2) := checks_all _
theorem Checks.vadd (a1 : TileAt) (a2 : VF) : Checks.Statement (.vadd a1 a2) := checks_all _
theorem Checks.vsub (a1 : TileAt) (a2 : VF) : Checks.Statement (.vsub a1 a2) := checks_all _
theorem Checks.vmul (a1 : TileAt) (a2 : VF) : Checks.Statement (.vmul a1 a2) := checks_all _
theorem Checks.vfma (a1 : TileAt) (a2 : VF) : Checks.Statement (.vfma a1 a2) := checks_all _
theorem Checks.vmin (a1 : TileAt) (a2 : VF) : Checks.Statement (.vmin a1 a2) := checks_all _
theorem Checks.vmax (a1 : TileAt) (a2 : VF) : Checks.Statement (.vmax a1 a2) := checks_all _
theorem Checks.vssub (a1 : TileAt) (a2 : VF) : Checks.Statement (.vssub a1 a2) := checks_all _
theorem Checks.vcmplt (a1 : TileAt) (a2 : VF) : Checks.Statement (.vcmplt a1 a2) := checks_all _
theorem Checks.vcmple (a1 : TileAt) (a2 : VF) : Checks.Statement (.vcmple a1 a2) := checks_all _
theorem Checks.vcmpeq (a1 : TileAt) (a2 : VF) : Checks.Statement (.vcmpeq a1 a2) := checks_all _
theorem Checks.vsel (a1 : TileAt) (a2 : VF) : Checks.Statement (.vsel a1 a2) := checks_all _
theorem Checks.vcmpr (a1 : TileAt) (a2 : VF) : Checks.Statement (.vcmpr a1 a2) := checks_all _
theorem Checks.vexpand (a1 : TileAt) (a2 : VF) : Checks.Statement (.vexpand a1 a2) := checks_all _
theorem Checks.vcvt (a1 : TileAt) (a2 : VF) : Checks.Statement (.vcvt a1 a2) := checks_all _
theorem Checks.vlut (a1 : TileAt) (a2 : VF) : Checks.Statement (.vlut a1 a2) := checks_all _
theorem Checks.vluti (a1 : TileAt) (a2 : VF) : Checks.Statement (.vluti a1 a2) := checks_all _
theorem Checks.vrmax (a1 : TileAt) (a2 : VF) : Checks.Statement (.vrmax a1 a2) := checks_all _
theorem Checks.vrsum (a1 : TileAt) (a2 : VF) : Checks.Statement (.vrsum a1 a2) := checks_all _
theorem Checks.vtwosum (a1 : TileAt) (a2 : VF) : Checks.Statement (.vtwosum a1 a2) := checks_all _
theorem Checks.vtwoprod (a1 : TileAt) (a2 : VF) : Checks.Statement (.vtwoprod a1 a2) := checks_all _
theorem Checks.vmov (a1 : TileAt) (a2 : VF) : Checks.Statement (.vmov a1 a2) := checks_all _
theorem Checks.vResultLands (a1 : TileAt) : Checks.Statement (.vResultLands a1) := checks_all _
theorem Checks.mload (a1 : TileAt) (a2 : MF) : Checks.Statement (.mload a1 a2) := checks_all _
theorem Checks.mmac (a1 : TileAt) (a2 : MF) : Checks.Statement (.mmac a1 a2) := checks_all _
theorem Checks.mmacAccumulate (a1 : TileAt) : Checks.Statement (.mmacAccumulate a1) := checks_all _
theorem Checks.mdrain (a1 : TileAt) (a2 : MF) : Checks.Statement (.mdrain a1 a2) := checks_all _
theorem Checks.mscale (a1 : TileAt) (a2 : MF) : Checks.Statement (.mscale a1 a2) := checks_all _
theorem Checks.landWindow (a1 : TileAt) (a2 : BitVec 10) : Checks.Statement (.landWindow a1 a2) := checks_all _
theorem Checks.vld (a1 : TileAt) (a2 : BitVec 3) (a3 : BitVec 3) (a4 : Bool) (a5 : BitVec 1) (a6 : BitVec 10) : Checks.Statement (.vld a1 a2 a3 a4 a5 a6) := checks_all _
theorem Checks.arm (a1 : TileAt) (a2 : BitVec 4) (a3 : BitVec 3) (a4 : BitVec 7) (a5 a6 : Bool) : Checks.Statement (.arm a1 a2 a3 a4 a5 a6) := checks_all _
theorem Checks.release (a1 : TileAt) (a2 : BitVec 4) : Checks.Statement (.release a1 a2) := checks_all _
theorem Checks.flip (a1 : TileAt) (a2 : BitVec 4) : Checks.Statement (.flip a1 a2) := checks_all _
theorem Checks.st (a1 : TileAt) (a2 : BitVec 3) (a3 : BitVec 3) (a4 : Bool) (a5 : BitVec 1) : Checks.Statement (.st a1 a2 a3 a4 a5) := checks_all _
theorem Checks.drain (a1 : TileAt) (a2 : BitVec 3) (a3 : Bool) (a4 : BitVec 4) : Checks.Statement (.drain a1 a2 a3 a4) := checks_all _
theorem Checks.drainv (a1 : TileAt) (a2 : BitVec 3) (a3 : BitVec 4) : Checks.Statement (.drainv a1 a2 a3) := checks_all _
theorem Checks.gate (a1 : TileAt) (a2 : BitVec 4) : Checks.Statement (.gate a1 a2) := checks_all _
theorem Checks.signal (a1 : TileAt) (a2 : KKnot) : Checks.Statement (.signal a1 a2) := checks_all _
theorem Checks.wait (a1 : TileAt) (a2 : KKnot) : Checks.Statement (.wait a1 a2) := checks_all _
theorem Checks.take (a1 : TileAt) (a2 : KKnot) : Checks.Statement (.take a1 a2) := checks_all _
theorem Checks.lock (a1 : TileAt) (a2 : KKnot) : Checks.Statement (.lock a1 a2) := checks_all _
theorem Checks.unlock (a1 : TileAt) (a2 : KKnot) : Checks.Statement (.unlock a1 a2) := checks_all _
theorem Checks.cpush (a1 : TileAt) (a2 : BitVec 3) (a3 : BitVec 3) (a4 : Bool) (a5 : Bool) : Checks.Statement (.cpush a1 a2 a3 a4 a5) := checks_all _
theorem Checks.laneStopTakesWord (a1 : TileAt) : Checks.Statement (.laneStopTakesWord a1) := checks_all _
theorem Checks.haltFreeze (a1 : PartNo) : Checks.Statement (.haltFreeze a1) := checks_all _
theorem Checks.holdTimeout (a1 : PartNo) : Checks.Statement (.holdTimeout a1) := checks_all _
theorem Checks.tileWindowRead (a1 : Requester) (a2 : TileAt) (a3 : BitVec 14) (a4 : Nat) : Checks.Statement (.tileWindowRead a1 a2 a3 a4) := checks_all _
theorem Checks.tileWindowReadTimeout (a1 : TileAt) : Checks.Statement (.tileWindowReadTimeout a1) := checks_all _
theorem Checks.tileWindowWrite (a1 : Requester) (a2 : TileAt) (a3 : BitVec 14) (a4 : Bytes) : Checks.Statement (.tileWindowWrite a1 a2 a3 a4) := checks_all _
theorem Checks.triggerWrite (a1 : Requester) (a2 : DieNo) (a3 : SideNo) (a4 : W64) : Checks.Statement (.triggerWrite a1 a2 a3 a4) := checks_all _
theorem Checks.sideAcceptDescriptor (a1 : DieNo) (a2 : SideNo) : Checks.Statement (.sideAcceptDescriptor a1 a2) := checks_all _
theorem Checks.hbmAccessComplete (a1 : DieNo) (a2 : SideNo) (a3 : HbmAccess) (a4 : SectorOutcome) : Checks.Statement (.hbmAccessComplete a1 a2 a3 a4) := checks_all _
theorem Checks.hbmRefresh (a1 : DieNo) (a2 : Fin 32) (a3 : Nat) : Checks.Statement (.hbmRefresh a1 a2 a3) := checks_all _
theorem Checks.drainWordArrives (a1 : DieNo) (a2 : SideNo) (a3 : Fin 16) : Checks.Statement (.drainWordArrives a1 a2 a3) := checks_all _
theorem Checks.descriptorComplete (a1 : DieNo) (a2 : SideNo) (a3 : Fin 80) : Checks.Statement (.descriptorComplete a1 a2 a3) := checks_all _
theorem Checks.cqHeadWrite (a1 : Requester) (a2 : DieNo) (a3 : SideNo) (a4 : BitVec 12) : Checks.Statement (.cqHeadWrite a1 a2 a3 a4) := checks_all _
theorem Checks.lightPathComplete (a1 : DieNo) (a2 : SideNo) (a3 : Fin 24) (a4 : SectorOutcome) : Checks.Statement (.lightPathComplete a1 a2 a3 a4) := checks_all _
theorem Checks.shuttleLoad (a1 : ShMem) : Checks.Statement (.shuttleLoad a1) := checks_all _
theorem Checks.shuttleStore (a1 : ShMem) : Checks.Statement (.shuttleStore a1) := checks_all _
theorem Checks.shuttleAtomic (a1 : ShuttleNo) (a2 : ThreadNo) (a3 : AmoOp) (a4 a5 a6 : BitVec 5) (a7 : Bool) : Checks.Statement (.shuttleAtomic a1 a2 a3 a4 a5 a6 a7) := checks_all _
theorem Checks.instructionFetchMiss (a1 : ShuttleNo) (a2 : ThreadNo) : Checks.Statement (.instructionFetchMiss a1 a2) := checks_all _
theorem Checks.fence (a1 : ShuttleNo) (a2 : ThreadNo) : Checks.Statement (.fence a1 a2) := checks_all _
theorem Checks.requestCompletion (a1 : ShuttleNo) (a2 : TagNo) (a3 : SectorOutcome) : Checks.Statement (.requestCompletion a1 a2 a3) := checks_all _
theorem Checks.threadQuantumExpiry (a1 : ShuttleNo) : Checks.Statement (.threadQuantumExpiry a1) := checks_all _
theorem Checks.shuttleException (a1 : ShuttleNo) (a2 : ThreadNo) (a3 : W64) (a4 : W64) (a5 : Bool) : Checks.Statement (.shuttleException a1 a2 a3 a4 a5) := checks_all _
theorem Checks.shuttleMachineException (a1 : ShuttleNo) (a2 : ThreadNo) (a3 : W64) : Checks.Statement (.shuttleMachineException a1 a2 a3) := checks_all _
theorem Checks.shYield (a1 : ShOp) : Checks.Statement (.shYield a1) := checks_all _
theorem Checks.shGet (a1 : ShOp) : Checks.Statement (.shGet a1) := checks_all _
theorem Checks.shPut (a1 : ShOp) : Checks.Statement (.shPut a1) := checks_all _
theorem Checks.shWtag (a1 : ShOp) : Checks.Statement (.shWtag a1) := checks_all _
theorem Checks.shPtag (a1 : ShOp) : Checks.Statement (.shPtag a1) := checks_all _
theorem Checks.shDesc (a1 : ShOp) : Checks.Statement (.shDesc a1) := checks_all _
theorem Checks.shKsig (a1 : ShOp) : Checks.Statement (.shKsig a1) := checks_all _
theorem Checks.shKwait (a1 : ShOp) : Checks.Statement (.shKwait a1) := checks_all _
theorem Checks.shKwaitg (a1 : ShOp) : Checks.Statement (.shKwaitg a1) := checks_all _
theorem Checks.shKtake (a1 : ShOp) : Checks.Statement (.shKtake a1) := checks_all _
theorem Checks.shKlock (a1 : ShOp) : Checks.Statement (.shKlock a1) := checks_all _
theorem Checks.shKunlock (a1 : ShOp) : Checks.Statement (.shKunlock a1) := checks_all _
theorem Checks.shKread (a1 : ShOp) : Checks.Statement (.shKread a1) := checks_all _
theorem Checks.shKinit (a1 : ShOp) : Checks.Statement (.shKinit a1) := checks_all _
theorem Checks.shChopen (a1 : ShOp) : Checks.Statement (.shChopen a1) := checks_all _
theorem Checks.shChsend (a1 : ShOp) : Checks.Statement (.shChsend a1) := checks_all _
theorem Checks.shChack (a1 : ShOp) : Checks.Statement (.shChack a1) := checks_all _
theorem Checks.shChpoll (a1 : ShOp) : Checks.Statement (.shChpoll a1) := checks_all _
theorem Checks.shChclose (a1 : ShOp) : Checks.Statement (.shChclose a1) := checks_all _
theorem Checks.shCqopen (a1 : ShOp) : Checks.Statement (.shCqopen a1) := checks_all _
theorem Checks.shCqadd (a1 : ShOp) : Checks.Statement (.shCqadd a1) := checks_all _
theorem Checks.shCqclose (a1 : ShOp) : Checks.Statement (.shCqclose a1) := checks_all _
theorem Checks.knotOperationApplied (a1 : Nat) : Checks.Statement (.knotOperationApplied a1) := checks_all _
theorem Checks.knotReply (a1 : Nat) : Checks.Statement (.knotReply a1) := checks_all _
theorem Checks.knotRetry (a1 : KnotAsker) : Checks.Statement (.knotRetry a1) := checks_all _
theorem Checks.forwarderMessage (a1 : DieNo) (a2 : SideNo) : Checks.Statement (.forwarderMessage a1 a2) := checks_all _
theorem Checks.forwarderRetry (a1 : DieNo) (a2 : SideNo) : Checks.Statement (.forwarderRetry a1 a2) := checks_all _
theorem Checks.channelMessageArrival (a1 : Nat) : Checks.Statement (.channelMessageArrival a1) := checks_all _
theorem Checks.cqContributionArrival (a1 : Nat) : Checks.Statement (.cqContributionArrival a1) := checks_all _
theorem Checks.cqMessageWritten (a1 : ShuttleNo) (a2 : Fin 16) : Checks.Statement (.cqMessageWritten a1 a2) := checks_all _
theorem Checks.patternLoad (a1 : Role) (a2 : PartNo) (a3 : Bool) : Checks.Statement (.patternLoad a1 a2 a3) := checks_all _
theorem Checks.patternUnload (a1 : Role) (a2 : PartNo) : Checks.Statement (.patternUnload a1 a2) := checks_all _
theorem Checks.regionUngate (a1 : PartNo) : Checks.Statement (.regionUngate a1) := checks_all _
theorem Checks.stepStart (a1 : Role) (a2 : PartNo) : Checks.Statement (.stepStart a1 a2) := checks_all _
theorem Checks.stepStop (a1 : Role) (a2 : PartNo) : Checks.Statement (.stepStop a1 a2) := checks_all _
theorem Checks.stepAbortCommand (a1 : Role) (a2 : PartNo) : Checks.Statement (.stepAbortCommand a1 a2) := checks_all _
theorem Checks.checkpointCommand (a1 : Role) (a2 : PartNo) : Checks.Statement (.checkpointCommand a1 a2) := checks_all _
theorem Checks.preEmpt (a1 : Role) (a2 : PartNo) : Checks.Statement (.preEmpt a1 a2) := checks_all _
theorem Checks.resume (a1 : Role) (a2 : PartNo) : Checks.Statement (.resume a1 a2) := checks_all _
theorem Checks.restoreCheckpoint (a1 : Role) (a2 : PartNo) : Checks.Statement (.restoreCheckpoint a1 a2) := checks_all _
theorem Checks.stepBoundary (a1 : PartNo) : Checks.Statement (.stepBoundary a1) := checks_all _
theorem Checks.stepAbort (a1 : PartNo) (a2 : Byte) : Checks.Statement (.stepAbort a1 a2) := checks_all _
theorem Checks.stepTimeout (a1 : PartNo) : Checks.Statement (.stepTimeout a1) := checks_all _
theorem Checks.laneMapWrite (a1 : Role) (a2 : Bytes) : Checks.Statement (.laneMapWrite a1 a2) := checks_all _
theorem Checks.portModeWrite (a1 : Role) (a2 : PortNo) (a3 : Byte) : Checks.Statement (.portModeWrite a1 a2 a3) := checks_all _
theorem Checks.packetReceive (a1 : PortNo) (a2 : Packet) (a3 : LineErrors) : Checks.Statement (.packetReceive a1 a2 a3) := checks_all _
theorem Checks.linkRetryRequest (a1 : PortNo) (a2 : BitVec 12) : Checks.Statement (.linkRetryRequest a1 a2) := checks_all _
theorem Checks.linkAck (a1 : PortNo) (a2 : BitVec 12) : Checks.Statement (.linkAck a1 a2) := checks_all _
theorem Checks.creditGrant (a1 : PortNo) (a2 : Nat) : Checks.Statement (.creditGrant a1 a2) := checks_all _
theorem Checks.lossOfSignal (a1 : PortNo) : Checks.Statement (.lossOfSignal a1) := checks_all _
theorem Checks.packetDeparture (a1 : PartNo) : Checks.Statement (.packetDeparture a1) := checks_all _
theorem Checks.e2eAck (a1 : PortNo) (a2 : W16) (a3 : W16) (a4 : BitVec 12) : Checks.Statement (.e2eAck a1 a2 a3 a4) := checks_all _
theorem Checks.nak (a1 : PortNo) (a2 : W16) (a3 : W16) (a4 : BitVec 12) (a5 : BitVec 2) (a6 : Byte) : Checks.Statement (.nak a1 a2 a3 a4 a5 a6) := checks_all _
theorem Checks.nakRetransmit (a1 : PartNo) (a2 : W16) (a3 : W16) : Checks.Statement (.nakRetransmit a1 a2 a3) := checks_all _
theorem Checks.e2eTimeout (a1 : PartNo) (a2 : W16) (a3 : W16) : Checks.Statement (.e2eTimeout a1 a2 a3) := checks_all _
theorem Checks.flowEntryExpiry (a1 : PortNo) (a2 : W16) (a3 : W16) : Checks.Statement (.flowEntryExpiry a1 a2 a3) := checks_all _
theorem Checks.peerUnreachable (a1 : PartNo) (a2 : W16) : Checks.Statement (.peerUnreachable a1 a2) := checks_all _
theorem Checks.routeTableWrite (a1 : Role) (a2 : PartNo) (a3 : BitVec 12) (a4 : W16) : Checks.Statement (.routeTableWrite a1 a2 a3 a4) := checks_all _
theorem Checks.unreachableChipsWrite (a1 : Role) (a2 : PartNo) (a3 : Bytes) : Checks.Statement (.unreachableChipsWrite a1 a2 a3) := checks_all _
theorem Checks.serviceStepAbort (a1 : PartNo) (a2 : BitVec 48) (a3 : Byte) : Checks.Statement (.serviceStepAbort a1 a2 a3) := checks_all _
theorem Checks.serviceCountExchange (a1 : PartNo) (a2 : W16) (a3 : BitVec 48) (a4 : List (W64 × W32)) : Checks.Statement (.serviceCountExchange a1 a2 a3 a4) := checks_all _
theorem Checks.serviceBarrier (a1 : PartNo) (a2 : W16) (a3 : BitVec 48) : Checks.Statement (.serviceBarrier a1 a2 a3) := checks_all _
theorem Checks.timeSyncExchange (a1 a2 a3 a4 : Int) : Checks.Statement (.timeSyncExchange a1 a2 a3 a4) := checks_all _
theorem Checks.spoolRequest (a1 : Requester) (a2 : PortNo) (a3 : Fin 64) (a4 a5 a6 a7 : W64) : Checks.Statement (.spoolRequest a1 a2 a3 a4 a5 a6 a7) := checks_all _
theorem Checks.spoolDataFrame (a1 : PortNo) (a2 : W32) (a3 : W64) (a4 : Bytes) (a5 : W32) : Checks.Statement (.spoolDataFrame a1 a2 a3 a4 a5) := checks_all _
theorem Checks.spoolErrorFrame (a1 : PortNo) (a2 : W32) (a3 : W32) : Checks.Statement (.spoolErrorFrame a1 a2 a3) := checks_all _
theorem Checks.spoolRetryTimeout (a1 : PortNo) (a2 : Fin 64) : Checks.Statement (.spoolRetryTimeout a1 a2) := checks_all _
theorem Checks.spoolStatusRead (a1 : Requester) (a2 : PortNo) (a3 : Fin 64) : Checks.Statement (.spoolStatusRead a1 a2 a3) := checks_all _
theorem Checks.neighborSolicitation (a1 : PortNo) (a2 : W128) (a3 : W128) : Checks.Statement (.neighborSolicitation a1 a2 a3) := checks_all _
theorem Checks.echoRequest (a1 : PortNo) (a2 : W128) (a3 : W128) (a4 : Bytes) : Checks.Statement (.echoRequest a1 a2 a3 a4) := checks_all _
theorem Checks.laceLoad (a1 : Role) (a2 : QuadNo) : Checks.Statement (.laceLoad a1 a2) := checks_all _
theorem Checks.laceEmpty (a1 : Role) (a2 : QuadNo) : Checks.Statement (.laceEmpty a1 a2) := checks_all _
theorem Checks.laceCapture (a1 : Requester) (a2 : QuadNo) : Checks.Statement (.laceCapture a1 a2) := checks_all _
theorem Checks.fabricTick (a1 : QuadNo) : Checks.Statement (.fabricTick a1) := checks_all _
theorem Checks.laceworkReadback (a1 : Role) (a2 : QuadNo) (a3 : Bool) : Checks.Statement (.laceworkReadback a1 a2 a3) := checks_all _
theorem Checks.changePoint (a1 : PartNo) : Checks.Statement (.changePoint a1) := checks_all _
theorem Checks.beatSwitch (a1 : PartNo) : Checks.Statement (.beatSwitch a1) := checks_all _
theorem Checks.monitorReport (a1 : RegionNo) (a2 : W16) (a3 : Byte) : Checks.Statement (.monitorReport a1 a2 a3) := checks_all _
theorem Checks.powerSample (a1 : W16) : Checks.Statement (.powerSample a1) := checks_all _
theorem Checks.powerProtectClear (a1 : Role) : Checks.Statement (.powerProtectClear a1) := checks_all _
theorem Checks.powerLimitWrite (a1 : Role) (a2 : Option PartNo) (a3 : W16) : Checks.Statement (.powerLimitWrite a1 a2 a3) := checks_all _
theorem Checks.configCommit (a1 : Role) : Checks.Statement (.configCommit a1) := checks_all _
theorem Checks.configDiscard (a1 : Role) : Checks.Statement (.configDiscard a1) := checks_all _
theorem Checks.saveMoveComplete (a1 : PartNo) : Checks.Statement (.saveMoveComplete a1) := checks_all _
theorem Checks.hostWindowAccess (a1 : FuncNo) (a2 : BitVec 28) (a3 : Nat) (a4 : Option Bytes) (a5 : SectorOutcome) : Checks.Statement (.hostWindowAccess a1 a2 a3 a4 a5) := checks_all _
theorem Checks.installerKeyWrite (a1 : Bool) (a2 : Bytes) : Checks.Statement (.installerKeyWrite a1 a2) := checks_all _
theorem Checks.makerGrantWrite (a1 : Role) (a2 : Bytes) : Checks.Statement (.makerGrantWrite a1 a2) := checks_all _
theorem Checks.grantExpiry : Checks.Statement (.grantExpiry) := checks_all _
theorem Checks.approvedModeEnter (a1 : Role) : Checks.Statement (.approvedModeEnter a1) := checks_all _
theorem Checks.approvedModeLeave (a1 : Role) : Checks.Statement (.approvedModeLeave a1) := checks_all _
theorem Checks.zeroise (a1 : Role) : Checks.Statement (.zeroise a1) := checks_all _
theorem Checks.moduleError : Checks.Statement (.moduleError) := checks_all _
theorem Checks.caerecServiceSlot : Checks.Statement (.caerecServiceSlot) := checks_all _
theorem Checks.attestNonceWrite (a1 : Role) (a2 : Bytes) : Checks.Statement (.attestNonceWrite a1 a2) := checks_all _
theorem Checks.attestReportRead (a1 : Role) : Checks.Statement (.attestReportRead a1) := checks_all _
theorem Checks.auditExportedToWrite (a1 : Role) (a2 : W64) : Checks.Statement (.auditExportedToWrite a1 a2) := checks_all _
theorem Checks.auditAnchorRequest (a1 : Role) : Checks.Statement (.auditAnchorRequest a1) := checks_all _
theorem Checks.firmwareVerify (a1 : Role) : Checks.Statement (.firmwareVerify a1) := checks_all _
theorem Checks.firmwareMarkActive (a1 : Role) : Checks.Statement (.firmwareMarkActive a1) := checks_all _
theorem Checks.firmwareCancel (a1 : Role) : Checks.Statement (.firmwareCancel a1) := checks_all _
theorem Checks.dxpRead (a1 : Transport) (a2 : DxpFrame) : Checks.Statement (.dxpRead a1 a2) := checks_all _
theorem Checks.dxpWrite (a1 : Transport) (a2 : DxpFrame) : Checks.Statement (.dxpWrite a1 a2) := checks_all _
theorem Checks.dxpSegmentRead (a1 : Transport) (a2 : DxpFrame) : Checks.Statement (.dxpSegmentRead a1 a2) := checks_all _
theorem Checks.dxpWriteInitiate (a1 : Transport) (a2 : DxpFrame) : Checks.Statement (.dxpWriteInitiate a1 a2) := checks_all _
theorem Checks.dxpSegmentWrite (a1 : Transport) (a2 : DxpFrame) : Checks.Statement (.dxpSegmentWrite a1 a2) := checks_all _
theorem Checks.dxpDescribe (a1 : Transport) (a2 : DxpFrame) : Checks.Statement (.dxpDescribe a1 a2) := checks_all _
theorem Checks.dxpCancel (a1 : Transport) (a2 : DxpFrame) : Checks.Statement (.dxpCancel a1 a2) := checks_all _
theorem Checks.dxpTransferTimeout (a1 : Transport) : Checks.Statement (.dxpTransferTimeout a1) := checks_all _
theorem Checks.i3cRequest (a1 a2 : Byte) (a3 a4 : W16) : Checks.Statement (.i3cRequest a1 a2 a3 a4) := checks_all _
theorem Checks.mbDoorbell (a1 : FuncNo) (a2 : BitVec 13) : Checks.Statement (.mbDoorbell a1 a2) := checks_all _
theorem Checks.mgmtEchoRequest (a1 : Bool) (a2 : W128) (a3 : Bytes) : Checks.Statement (.mgmtEchoRequest a1 a2 a3) := checks_all _
theorem Checks.mgmtAddressResolution (a1 : Bool) (a2 : W128) : Checks.Statement (.mgmtAddressResolution a1 a2) := checks_all _
theorem Checks.registerWrite (a1 : Requester) (a2 : RegAddr) (a3 : Bytes) : Checks.Statement (.registerWrite a1 a2 a3) := checks_all _
theorem Checks.eventControllerClock : Checks.Statement (.eventControllerClock) := checks_all _
theorem Checks.eventRecordWrite : Checks.Statement (.eventRecordWrite) := checks_all _
theorem Checks.enableSet (a1 : EvPath) (a2 : BitVec 1024) : Checks.Statement (.enableSet a1 a2) := checks_all _
theorem Checks.enableClear (a1 : EvPath) (a2 : BitVec 1024) : Checks.Statement (.enableClear a1 a2) := checks_all _
theorem Checks.pendingSet (a1 : EvPath) (a2 : BitVec 1024) : Checks.Statement (.pendingSet a1 a2) := checks_all _
theorem Checks.pendingClear (a1 : EvPath) (a2 : BitVec 1024) : Checks.Statement (.pendingClear a1 a2) := checks_all _
theorem Checks.complete (a1 : EvPath) (a2 : BitVec 10) : Checks.Statement (.complete a1 a2) := checks_all _
theorem Checks.holdoffWrite (a1 : Role) (a2 : Bool) : Checks.Statement (.holdoffWrite a1 a2) := checks_all _
theorem Checks.ringCfgWrite (a1 : FuncNo) (a2 : W64) : Checks.Statement (.ringCfgWrite a1 a2) := checks_all _
theorem Checks.ringBaseWrite (a1 : FuncNo) (a2 : W64) : Checks.Statement (.ringBaseWrite a1 a2) := checks_all _
theorem Checks.ringHeadWrite (a1 : FuncNo) (a2 : BitVec 12) : Checks.Statement (.ringHeadWrite a1 a2) := checks_all _
theorem Checks.readbackDataRead (a1 : Role) (a2 : FuncNo) (a3 : Nat) (a4 : Nat) (a5 : SectorOutcome) : Checks.Statement (.readbackDataRead a1 a2 a3 a4 a5) := checks_all _
theorem Checks.readbackDataWrite (a1 : Role) (a2 : FuncNo) (a3 : Nat) (a4 : Bytes) : Checks.Statement (.readbackDataWrite a1 a2 a3 a4) := checks_all _
theorem Checks.holdNow (a1 : Role) (a2 : PartNo) : Checks.Statement (.holdNow a1 a2) := checks_all _
theorem Checks.holdAtSBeat (a1 : Role) (a2 : PartNo) : Checks.Statement (.holdAtSBeat a1 a2) := checks_all _
theorem Checks.debugFreeze (a1 : PartNo) : Checks.Statement (.debugFreeze a1) := checks_all _
theorem Checks.debugRelease (a1 : Role) (a2 : PartNo) : Checks.Statement (.debugRelease a1 a2) := checks_all _
theorem Checks.debugStep (a1 : Role) (a2 : PartNo) : Checks.Statement (.debugStep a1 a2) := checks_all _
theorem Checks.snapshot (a1 : Role) (a2 : PartNo) : Checks.Statement (.snapshot a1 a2) := checks_all _
theorem Checks.snapshotDone (a1 : PartNo) : Checks.Statement (.snapshotDone a1) := checks_all _
theorem Checks.knotSet (a1 : Role) (a2 : PartNo) (a3 : W64) (a4 : W64) : Checks.Statement (.knotSet a1 a2 a3 a4) := checks_all _
theorem Checks.recordArm (a1 : Role) (a2 : PartNo) : Checks.Statement (.recordArm a1 a2) := checks_all _
theorem Checks.recordEnd (a1 : Role) (a2 : PartNo) : Checks.Statement (.recordEnd a1 a2) := checks_all _
theorem Checks.replayStart (a1 : Role) (a2 : PartNo) : Checks.Statement (.replayStart a1 a2) := checks_all _
theorem Checks.replayAbandon (a1 : Role) (a2 : PartNo) : Checks.Statement (.replayAbandon a1 a2) := checks_all _
theorem Checks.recordDataWrite (a1 : Role) (a2 : PartNo) (a3 : Bytes) : Checks.Statement (.recordDataWrite a1 a2 a3) := checks_all _
theorem Checks.replayStampedInput (a1 : PartNo) : Checks.Statement (.replayStampedInput a1) := checks_all _
theorem Checks.replayStall (a1 : PartNo) : Checks.Statement (.replayStall a1) := checks_all _
theorem Checks.hbmScrub (a1 : Role) (a2 : DieNo) (a3 : Fin 32) : Checks.Statement (.hbmScrub a1 a2 a3) := checks_all _
theorem Checks.hbmRetraining (a1 : Role) (a2 : DieNo) (a3 : Fin 32) : Checks.Statement (.hbmRetraining a1 a2 a3) := checks_all _
theorem Checks.portRetraining (a1 : Role) (a2 : PortNo) : Checks.Statement (.portRetraining a1 a2) := checks_all _
theorem Checks.tileMemorySelfTest (a1 : Role) (a2 : QuadNo) : Checks.Statement (.tileMemorySelfTest a1 a2) := checks_all _
theorem Checks.maintScheduleFire (a1 : DieNo) : Checks.Statement (.maintScheduleFire a1) := checks_all _
theorem Checks.maintActivityEnd (a1 : DieNo) (a2 : Activity) (a3 : Bool) (a4 : List TileAt) : Checks.Statement (.maintActivityEnd a1 a2 a3 a4) := checks_all _
theorem Checks.vauxLost : Checks.Statement (.vauxLost) := checks_all _
theorem Checks.regionGate (a1 : PartNo) : Checks.Statement (.regionGate a1) := checks_all _
theorem Checks.spiGrant : Checks.Statement (.spiGrant) := checks_all _
theorem Checks.linkAcknowledgementTimer (a1 : PortNo) : Checks.Statement (.linkAcknowledgementTimer a1) := checks_all _
theorem Checks.e2eAcknowledgementTimer (a1 : PortNo) (a2 : W16) (a3 : W16) : Checks.Statement (.e2eAcknowledgementTimer a1 a2 a3) := checks_all _
theorem Checks.pauseFrame (a1 : PortNo) (a2 : Bool) : Checks.Statement (.pauseFrame a1 a2) := checks_all _
theorem Checks.mgmtFrameDiscard : Checks.Statement (.mgmtFrameDiscard) := checks_all _
theorem Checks.mgmtLinkChange (a1 : Bool) : Checks.Statement (.mgmtLinkChange a1) := checks_all _
theorem Checks.dynamicAddressAssignment (a1 : BitVec 7) : Checks.Statement (.dynamicAddressAssignment a1) := checks_all _

end Sys2Proof.Laws
end

