-- ==== Sys2Proof/Laws/Sparse.lean ====
section
/-! SUPPORT. A store by number: what it reads after a write, and that its canonical form is kept. -/

namespace Sys2Proof.Laws
open Sys2Proof.Machine

variable {α : Type}

theorem sGet_sDrop (d : α) (k j : Nat) (h : k < j) (m : Sparse α) : sGet d j (sDrop k m) = sGet d j m := by
  induction m with
  | nil => rfl
  | cons e r ih =>
    obtain ⟨a, v⟩ := e
    by_cases ha : a ≤ k
    · simp only [sDrop, ha, if_true, ih, sGet]
      rw [if_neg (by omega), if_neg (by omega)]
    · simp only [sDrop, ha, if_false]

theorem sGet_sDrop_self (d : α) (k : Nat) (m : Sparse α) : sGet d k (sDrop k m) = d := by
  induction m with
  | nil => rfl
  | cons e r ih =>
    obtain ⟨a, v⟩ := e
    by_cases ha : a ≤ k
    · simp only [sDrop, ha, if_true, ih]
    · simp only [sDrop, ha, if_false, sGet]
      rw [if_neg (by omega), if_pos (by omega)]

theorem sGet_sDrop_lt (d : α) (k j : Nat) (h : j < k) (a : Nat) (v : α) (m : Sparse α) (ha : k ≤ a) :
    sGet d j (sDrop k ((a, v) :: m)) = d := by
  induction m generalizing a v with
  | nil =>
    by_cases h1 : a ≤ k <;> simp only [sDrop, h1, if_true, if_false, sGet]
    rw [if_neg (by omega), if_pos (by omega)]
  | cons e r ih =>
    obtain ⟨b, w⟩ := e
    by_cases h1 : a ≤ k
    · by_cases h2 : b ≤ k
      · have := ih k w (Nat.le_refl k)
        simp only [sDrop, h1, h2, Nat.le_refl, if_true] at this ⊢
        exact this
      · simp only [sDrop, h1, h2, if_true, if_false, sGet]
        rw [if_neg (by omega), if_pos (by omega)]
    · simp only [sDrop, h1, if_false, sGet]
      rw [if_neg (by omega), if_pos (by omega)]

/-- A write is read back. -/
@[simp] theorem sGet_sPut_self [DecidableEq α] (d : α) (k : Nat) (v : α) (m : Sparse α) : sGet d k (sPut d k v m) = v := by
  induction m with
  | nil =>
    by_cases hv : v = d <;> simp [sPut, sGet, hv]
  | cons e r ih =>
    obtain ⟨a, w⟩ := e
    unfold sPut
    by_cases h1 : k < a
    · by_cases hv : v = d <;> simp only [h1, hv, if_true, if_false, sGet]
      rw [if_neg (by omega)]
    · by_cases h2 : k = a
      · by_cases hv : v = d <;> simp only [h2, hv, if_true, if_false]
        · simp only [Nat.lt_irrefl, if_false]
          exact sGet_sDrop_self d a r
        · simp only [Nat.lt_irrefl, if_false, sGet, if_true]
      · simp only [h1, h2, if_false, sGet, ih]
        rw [if_neg (by omega)]

/-- A write leaves every other number alone, whatever the reader takes for the default. -/
theorem sGet_sPut_ne' [DecidableEq α] (d c : α) (k j : Nat) (v : α) (m : Sparse α) (h : j ≠ k) :
    sGet d j (sPut c k v m) = sGet d j m := by
  induction m with
  | nil =>
    by_cases hv : v = c
    · simp [sPut, sGet, hv]
    · simp only [sPut, hv, if_false, sGet]
      rw [if_neg (by omega)]
      split <;> rfl
  | cons e r ih =>
    obtain ⟨a, w⟩ := e
    unfold sPut
    by_cases h1 : k < a
    · by_cases hv : v = c
      · simp only [h1, hv, if_true]
      · simp only [h1, hv, if_true, if_false, sGet]
        rw [if_neg (by omega)]
        by_cases h3 : j < k
        · rw [if_pos h3, if_neg (by omega), if_pos (by omega)]
        · rw [if_neg h3]
    · by_cases h2 : k = a
      · subst h2
        by_cases hj : j < k
        · have hd : sGet d j (sDrop k r) = d := by
            cases r with
            | nil => rfl
            | cons e r =>
              obtain ⟨b, u⟩ := e
              by_cases hb : k ≤ b
              · exact sGet_sDrop_lt d k j hj b u r hb
              · have := sGet_sDrop_lt d k j hj k u r (Nat.le_refl k)
                simp only [sDrop, Nat.le_refl, if_true] at this
                simp only [sDrop, show b ≤ k by omega, if_true]
                exact this
          by_cases hv : v = c
          · simp only [Nat.lt_irrefl, hv, if_true, if_false, sGet, hd]
            rw [if_neg (by omega), if_pos hj]
          · simp only [Nat.lt_irrefl, hv, if_true, if_false, sGet]
            rw [if_neg (by omega), if_pos hj, if_neg (by omega), if_pos hj]
        · have hd := sGet_sDrop d k j (by omega) r
          by_cases hv : v = c
          · simp only [Nat.lt_irrefl, hv, if_true, if_false, sGet, hd]
            rw [if_neg (by omega), if_neg hj]
          · simp only [Nat.lt_irrefl, hv, if_true, if_false, sGet, hd]
            rw [if_neg (by omega), if_neg (by omega), if_neg (by omega)]
      · simp only [h1, h2, if_false, sGet, ih]

/-- A write leaves every other number alone. -/
theorem sGet_sPut_ne [DecidableEq α] (d : α) (k j : Nat) (v : α) (m : Sparse α) (h : j ≠ k) :
    sGet d j (sPut d k v m) = sGet d j m := sGet_sPut_ne' d d k j v m h

theorem sDrop_sDrop (k : Nat) (m : Sparse α) : sDrop k (sDrop k m) = sDrop k m := by
  induction m with
  | nil => rfl
  | cons e r ih =>
    obtain ⟨a, v⟩ := e
    by_cases h : a ≤ k <;> simp [sDrop, h, ih]

theorem sPut_sDrop [DecidableEq α] (d : α) (k : Nat) (v : α) (r : Sparse α) :
    sPut d k v (sDrop k r) = if v = d then sDrop k r else (k, v) :: sDrop k r := by
  induction r with
  | nil => rfl
  | cons e r ih =>
    obtain ⟨a, w⟩ := e
    by_cases h : a ≤ k
    · simp only [sDrop, h, if_true, ih]
    · simp only [sDrop, h, if_false, sPut]
      rw [if_pos (by omega)]

/-- Of two writes at one number the second stands. -/
@[simp] theorem sPut_sPut [DecidableEq α] (d : α) (k : Nat) (v w : α) (m : Sparse α) :
    sPut d k w (sPut d k v m) = sPut d k w m := by
  induction m with
  | nil => by_cases hv : v = d <;> simp [sPut, hv, sDrop]
  | cons e r ih =>
    obtain ⟨a, u⟩ := e
    by_cases h1 : k < a
    · by_cases hv : v = d
      · simp only [sPut, h1, hv, if_true]
      · have : sDrop k ((a, u) :: r) = (a, u) :: r := by
          simp only [sDrop]
          rw [if_neg (by omega)]
        simp only [sPut, h1, hv, if_true, if_false, Nat.lt_irrefl, this]
    · by_cases h2 : k = a
      · subst h2
        by_cases hv : v = d
        · simp only [sPut, hv, Nat.lt_irrefl, if_true, if_false]
          exact sPut_sDrop d k w r
        · simp only [sPut, hv, Nat.lt_irrefl, if_true, if_false, sDrop_sDrop]
      · simp only [sPut, h1, h2, if_false, ih]

theorem sWfFrom_mono [DecidableEq α] (d : α) (n n' : Nat) (h : n' ≤ n) (m : Sparse α) :
    sWfFrom d n m = true → sWfFrom d n' m = true := by
  cases m with
  | nil => simp [sWfFrom]
  | cons e r =>
    obtain ⟨a, v⟩ := e
    simp only [sWfFrom, Bool.and_eq_true, decide_eq_true_eq]
    rintro ⟨⟨h1, h2⟩, h3⟩
    exact ⟨⟨by omega, h2⟩, h3⟩

theorem sDrop_of_wf [DecidableEq α] (d : α) (k : Nat) (m : Sparse α) (h : sWfFrom d (k + 1) m = true) : sDrop k m = m := by
  cases m with
  | nil => rfl
  | cons e r =>
    obtain ⟨a, v⟩ := e
    simp only [sWfFrom, Bool.and_eq_true, decide_eq_true_eq] at h
    simp only [sDrop]
    rw [if_neg (by omega)]

theorem sWfFrom_sPut [DecidableEq α] (d : α) (n k : Nat) (v : α) (hk : n ≤ k) (m : Sparse α) :
    sWfFrom d n m = true → sWfFrom d n (sPut d k v m) = true := by
  induction m generalizing n with
  | nil =>
    intro _
    by_cases hv : v = d <;> simp [sPut, sWfFrom, hv, hk]
  | cons e r ih =>
    obtain ⟨a, w⟩ := e
    intro hm
    have hm' := hm
    simp only [sWfFrom, Bool.and_eq_true, decide_eq_true_eq] at hm
    obtain ⟨⟨h1, h2⟩, h3⟩ := hm
    unfold sPut
    by_cases hlt : k < a
    · by_cases hv : v = d
      · simp only [hlt, hv, if_true]
        exact hm'
      · simp only [hlt, hv, if_true, if_false, sWfFrom, Bool.and_eq_true, decide_eq_true_eq]
        exact ⟨⟨hk, hv⟩, ⟨by omega, h2⟩, h3⟩
    · by_cases he : k = a
      · subst he
        rw [sDrop_of_wf d k r h3]
        by_cases hv : v = d
        · simp only [Nat.lt_irrefl, hv, if_true, if_false]
          exact sWfFrom_mono d (k + 1) n (by omega) r h3
        · simp only [Nat.lt_irrefl, hv, if_true, if_false, sWfFrom, Bool.and_eq_true, decide_eq_true_eq]
          exact ⟨⟨hk, hv⟩, h3⟩
      · simp only [hlt, he, if_false, sWfFrom, Bool.and_eq_true, decide_eq_true_eq]
        exact ⟨⟨h1, h2⟩, ih (a + 1) (by omega) h3⟩

/-- A write keeps the canonical form. -/
theorem sWf_sPut [DecidableEq α] (d : α) (k : Nat) (v : α) (m : Sparse α) (h : sWf d m = true) : sWf d (sPut d k v m) = true :=
  sWfFrom_sPut d 0 k v (Nat.zero_le k) m h

end Sys2Proof.Laws
end

