-- ==== Sys2Proof/Laws/State.lean ====
section
/-! SUPPORT. What each update of the state leaves alone, and what it reads back. -/

namespace Sys2Proof.Laws
open Sys2Proof.Machine

@[simp] theorem putTile_pending (s : State) (k : Nat) (v : Tile) : (putTile s k v).pending = s.pending := rfl
@[simp] theorem putTile_freeCount (s : State) (k : Nat) (v : Tile) : (putTile s k v).freeCount = s.freeCount := rfl
@[simp] theorem putTile_nowNs (s : State) (k : Nat) (v : Tile) : (putTile s k v).nowNs = s.nowNs := rfl
@[simp] theorem putTile_rackNs (s : State) (k : Nat) (v : Tile) : (putTile s k v).rackNs = s.rackNs := rfl
@[simp] theorem putTile_reply (s : State) (k : Nat) (v : Tile) : (putTile s k v).reply = s.reply := rfl
@[simp] theorem putTile_fuses (s : State) (k : Nat) (v : Tile) : (putTile s k v).fuses = s.fuses := rfl
@[simp] theorem putTile_sides (s : State) (k : Nat) (v : Tile) : (putTile s k v).sides = s.sides := rfl
@[simp] theorem putTile_laces (s : State) (k : Nat) (v : Tile) : (putTile s k v).laces = s.laces := rfl
@[simp] theorem putTile_hbm (s : State) (k : Nat) (v : Tile) : (putTile s k v).hbm = s.hbm := rfl
@[simp] theorem putTile_hbmDies (s : State) (k : Nat) (v : Tile) : (putTile s k v).hbmDies = s.hbmDies := rfl
@[simp] theorem putTile_quadCounts (s : State) (k : Nat) (v : Tile) : (putTile s k v).quadCounts = s.quadCounts := rfl
@[simp] theorem putTile_shuttles (s : State) (k : Nat) (v : Tile) : (putTile s k v).shuttles = s.shuttles := rfl
@[simp] theorem putTile_net (s : State) (k : Nat) (v : Tile) : (putTile s k v).net = s.net := rfl
@[simp] theorem putTile_parts (s : State) (k : Nat) (v : Tile) : (putTile s k v).parts = s.parts := rfl
@[simp] theorem putTile_events (s : State) (k : Nat) (v : Tile) : (putTile s k v).events = s.events := rfl
@[simp] theorem putTile_sec (s : State) (k : Nat) (v : Tile) : (putTile s k v).sec = s.sec := rfl
@[simp] theorem putTile_links (s : State) (k : Nat) (v : Tile) : (putTile s k v).links = s.links := rfl
@[simp] theorem putTile_routes (s : State) (k : Nat) (v : Tile) : (putTile s k v).routes = s.routes := rfl
@[simp] theorem putTile_pack (s : State) (k : Nat) (v : Tile) : (putTile s k v).pack = s.pack := rfl

@[simp] theorem putPart_pending (s : State) (k : Nat) (v : Part) : (putPart s k v).pending = s.pending := rfl
@[simp] theorem putPart_freeCount (s : State) (k : Nat) (v : Part) : (putPart s k v).freeCount = s.freeCount := rfl
@[simp] theorem putPart_nowNs (s : State) (k : Nat) (v : Part) : (putPart s k v).nowNs = s.nowNs := rfl
@[simp] theorem putPart_rackNs (s : State) (k : Nat) (v : Part) : (putPart s k v).rackNs = s.rackNs := rfl
@[simp] theorem putPart_reply (s : State) (k : Nat) (v : Part) : (putPart s k v).reply = s.reply := rfl
@[simp] theorem putPart_fuses (s : State) (k : Nat) (v : Part) : (putPart s k v).fuses = s.fuses := rfl
@[simp] theorem putPart_tiles (s : State) (k : Nat) (v : Part) : (putPart s k v).tiles = s.tiles := rfl
@[simp] theorem putPart_sides (s : State) (k : Nat) (v : Part) : (putPart s k v).sides = s.sides := rfl
@[simp] theorem putPart_laces (s : State) (k : Nat) (v : Part) : (putPart s k v).laces = s.laces := rfl
@[simp] theorem putPart_hbm (s : State) (k : Nat) (v : Part) : (putPart s k v).hbm = s.hbm := rfl
@[simp] theorem putPart_hbmDies (s : State) (k : Nat) (v : Part) : (putPart s k v).hbmDies = s.hbmDies := rfl
@[simp] theorem putPart_quadCounts (s : State) (k : Nat) (v : Part) : (putPart s k v).quadCounts = s.quadCounts := rfl
@[simp] theorem putPart_shuttles (s : State) (k : Nat) (v : Part) : (putPart s k v).shuttles = s.shuttles := rfl
@[simp] theorem putPart_net (s : State) (k : Nat) (v : Part) : (putPart s k v).net = s.net := rfl
@[simp] theorem putPart_events (s : State) (k : Nat) (v : Part) : (putPart s k v).events = s.events := rfl
@[simp] theorem putPart_sec (s : State) (k : Nat) (v : Part) : (putPart s k v).sec = s.sec := rfl
@[simp] theorem putPart_links (s : State) (k : Nat) (v : Part) : (putPart s k v).links = s.links := rfl
@[simp] theorem putPart_routes (s : State) (k : Nat) (v : Part) : (putPart s k v).routes = s.routes := rfl
@[simp] theorem putPart_pack (s : State) (k : Nat) (v : Part) : (putPart s k v).pack = s.pack := rfl

@[simp] theorem updPart_pending (s : State) (k : Nat) (f : Part → Part) : (updPart s k f).pending = s.pending := rfl
@[simp] theorem updPart_freeCount (s : State) (k : Nat) (f : Part → Part) : (updPart s k f).freeCount = s.freeCount := rfl
@[simp] theorem updPart_nowNs (s : State) (k : Nat) (f : Part → Part) : (updPart s k f).nowNs = s.nowNs := rfl
@[simp] theorem updPart_rackNs (s : State) (k : Nat) (f : Part → Part) : (updPart s k f).rackNs = s.rackNs := rfl
@[simp] theorem updPart_reply (s : State) (k : Nat) (f : Part → Part) : (updPart s k f).reply = s.reply := rfl
@[simp] theorem updPart_fuses (s : State) (k : Nat) (f : Part → Part) : (updPart s k f).fuses = s.fuses := rfl
@[simp] theorem updPart_tiles (s : State) (k : Nat) (f : Part → Part) : (updPart s k f).tiles = s.tiles := rfl
@[simp] theorem updPart_sides (s : State) (k : Nat) (f : Part → Part) : (updPart s k f).sides = s.sides := rfl
@[simp] theorem updPart_laces (s : State) (k : Nat) (f : Part → Part) : (updPart s k f).laces = s.laces := rfl
@[simp] theorem updPart_hbm (s : State) (k : Nat) (f : Part → Part) : (updPart s k f).hbm = s.hbm := rfl
@[simp] theorem updPart_hbmDies (s : State) (k : Nat) (f : Part → Part) : (updPart s k f).hbmDies = s.hbmDies := rfl
@[simp] theorem updPart_quadCounts (s : State) (k : Nat) (f : Part → Part) : (updPart s k f).quadCounts = s.quadCounts := rfl
@[simp] theorem updPart_shuttles (s : State) (k : Nat) (f : Part → Part) : (updPart s k f).shuttles = s.shuttles := rfl
@[simp] theorem updPart_net (s : State) (k : Nat) (f : Part → Part) : (updPart s k f).net = s.net := rfl
@[simp] theorem updPart_events (s : State) (k : Nat) (f : Part → Part) : (updPart s k f).events = s.events := rfl
@[simp] theorem updPart_sec (s : State) (k : Nat) (f : Part → Part) : (updPart s k f).sec = s.sec := rfl
@[simp] theorem updPart_links (s : State) (k : Nat) (f : Part → Part) : (updPart s k f).links = s.links := rfl
@[simp] theorem updPart_routes (s : State) (k : Nat) (f : Part → Part) : (updPart s k f).routes = s.routes := rfl
@[simp] theorem updPart_pack (s : State) (k : Nat) (f : Part → Part) : (updPart s k f).pack = s.pack := rfl

@[simp] theorem updHold_pending (s : State) (k : Nat) (f : Hold → Hold) : (updHold s k f).pending = s.pending := rfl
@[simp] theorem updHold_freeCount (s : State) (k : Nat) (f : Hold → Hold) : (updHold s k f).freeCount = s.freeCount := rfl
@[simp] theorem updHold_nowNs (s : State) (k : Nat) (f : Hold → Hold) : (updHold s k f).nowNs = s.nowNs := rfl
@[simp] theorem updHold_rackNs (s : State) (k : Nat) (f : Hold → Hold) : (updHold s k f).rackNs = s.rackNs := rfl
@[simp] theorem updHold_reply (s : State) (k : Nat) (f : Hold → Hold) : (updHold s k f).reply = s.reply := rfl
@[simp] theorem updHold_fuses (s : State) (k : Nat) (f : Hold → Hold) : (updHold s k f).fuses = s.fuses := rfl
@[simp] theorem updHold_tiles (s : State) (k : Nat) (f : Hold → Hold) : (updHold s k f).tiles = s.tiles := rfl
@[simp] theorem updHold_sides (s : State) (k : Nat) (f : Hold → Hold) : (updHold s k f).sides = s.sides := rfl
@[simp] theorem updHold_laces (s : State) (k : Nat) (f : Hold → Hold) : (updHold s k f).laces = s.laces := rfl
@[simp] theorem updHold_hbm (s : State) (k : Nat) (f : Hold → Hold) : (updHold s k f).hbm = s.hbm := rfl
@[simp] theorem updHold_hbmDies (s : State) (k : Nat) (f : Hold → Hold) : (updHold s k f).hbmDies = s.hbmDies := rfl
@[simp] theorem updHold_quadCounts (s : State) (k : Nat) (f : Hold → Hold) : (updHold s k f).quadCounts = s.quadCounts := rfl
@[simp] theorem updHold_shuttles (s : State) (k : Nat) (f : Hold → Hold) : (updHold s k f).shuttles = s.shuttles := rfl
@[simp] theorem updHold_net (s : State) (k : Nat) (f : Hold → Hold) : (updHold s k f).net = s.net := rfl
@[simp] theorem updHold_events (s : State) (k : Nat) (f : Hold → Hold) : (updHold s k f).events = s.events := rfl
@[simp] theorem updHold_sec (s : State) (k : Nat) (f : Hold → Hold) : (updHold s k f).sec = s.sec := rfl
@[simp] theorem updHold_links (s : State) (k : Nat) (f : Hold → Hold) : (updHold s k f).links = s.links := rfl
@[simp] theorem updHold_routes (s : State) (k : Nat) (f : Hold → Hold) : (updHold s k f).routes = s.routes := rfl
@[simp] theorem updHold_pack (s : State) (k : Nat) (f : Hold → Hold) : (updHold s k f).pack = s.pack := rfl

@[simp] theorem putSide_pending (s : State) (k : Nat) (v : Side) : (putSide s k v).pending = s.pending := rfl
@[simp] theorem putSide_freeCount (s : State) (k : Nat) (v : Side) : (putSide s k v).freeCount = s.freeCount := rfl
@[simp] theorem putSide_nowNs (s : State) (k : Nat) (v : Side) : (putSide s k v).nowNs = s.nowNs := rfl
@[simp] theorem putSide_rackNs (s : State) (k : Nat) (v : Side) : (putSide s k v).rackNs = s.rackNs := rfl
@[simp] theorem putSide_reply (s : State) (k : Nat) (v : Side) : (putSide s k v).reply = s.reply := rfl
@[simp] theorem putSide_fuses (s : State) (k : Nat) (v : Side) : (putSide s k v).fuses = s.fuses := rfl
@[simp] theorem putSide_tiles (s : State) (k : Nat) (v : Side) : (putSide s k v).tiles = s.tiles := rfl
@[simp] theorem putSide_laces (s : State) (k : Nat) (v : Side) : (putSide s k v).laces = s.laces := rfl
@[simp] theorem putSide_hbm (s : State) (k : Nat) (v : Side) : (putSide s k v).hbm = s.hbm := rfl
@[simp] theorem putSide_hbmDies (s : State) (k : Nat) (v : Side) : (putSide s k v).hbmDies = s.hbmDies := rfl
@[simp] theorem putSide_quadCounts (s : State) (k : Nat) (v : Side) : (putSide s k v).quadCounts = s.quadCounts := rfl
@[simp] theorem putSide_shuttles (s : State) (k : Nat) (v : Side) : (putSide s k v).shuttles = s.shuttles := rfl
@[simp] theorem putSide_net (s : State) (k : Nat) (v : Side) : (putSide s k v).net = s.net := rfl
@[simp] theorem putSide_parts (s : State) (k : Nat) (v : Side) : (putSide s k v).parts = s.parts := rfl
@[simp] theorem putSide_events (s : State) (k : Nat) (v : Side) : (putSide s k v).events = s.events := rfl
@[simp] theorem putSide_sec (s : State) (k : Nat) (v : Side) : (putSide s k v).sec = s.sec := rfl
@[simp] theorem putSide_links (s : State) (k : Nat) (v : Side) : (putSide s k v).links = s.links := rfl
@[simp] theorem putSide_routes (s : State) (k : Nat) (v : Side) : (putSide s k v).routes = s.routes := rfl
@[simp] theorem putSide_pack (s : State) (k : Nat) (v : Side) : (putSide s k v).pack = s.pack := rfl

@[simp] theorem updSide_pending (s : State) (k : Nat) (f : Side → Side) : (updSide s k f).pending = s.pending := rfl
@[simp] theorem updSide_freeCount (s : State) (k : Nat) (f : Side → Side) : (updSide s k f).freeCount = s.freeCount := rfl
@[simp] theorem updSide_nowNs (s : State) (k : Nat) (f : Side → Side) : (updSide s k f).nowNs = s.nowNs := rfl
@[simp] theorem updSide_rackNs (s : State) (k : Nat) (f : Side → Side) : (updSide s k f).rackNs = s.rackNs := rfl
@[simp] theorem updSide_reply (s : State) (k : Nat) (f : Side → Side) : (updSide s k f).reply = s.reply := rfl
@[simp] theorem updSide_fuses (s : State) (k : Nat) (f : Side → Side) : (updSide s k f).fuses = s.fuses := rfl
@[simp] theorem updSide_tiles (s : State) (k : Nat) (f : Side → Side) : (updSide s k f).tiles = s.tiles := rfl
@[simp] theorem updSide_laces (s : State) (k : Nat) (f : Side → Side) : (updSide s k f).laces = s.laces := rfl
@[simp] theorem updSide_hbm (s : State) (k : Nat) (f : Side → Side) : (updSide s k f).hbm = s.hbm := rfl
@[simp] theorem updSide_hbmDies (s : State) (k : Nat) (f : Side → Side) : (updSide s k f).hbmDies = s.hbmDies := rfl
@[simp] theorem updSide_quadCounts (s : State) (k : Nat) (f : Side → Side) : (updSide s k f).quadCounts = s.quadCounts := rfl
@[simp] theorem updSide_shuttles (s : State) (k : Nat) (f : Side → Side) : (updSide s k f).shuttles = s.shuttles := rfl
@[simp] theorem updSide_net (s : State) (k : Nat) (f : Side → Side) : (updSide s k f).net = s.net := rfl
@[simp] theorem updSide_parts (s : State) (k : Nat) (f : Side → Side) : (updSide s k f).parts = s.parts := rfl
@[simp] theorem updSide_events (s : State) (k : Nat) (f : Side → Side) : (updSide s k f).events = s.events := rfl
@[simp] theorem updSide_sec (s : State) (k : Nat) (f : Side → Side) : (updSide s k f).sec = s.sec := rfl
@[simp] theorem updSide_links (s : State) (k : Nat) (f : Side → Side) : (updSide s k f).links = s.links := rfl
@[simp] theorem updSide_routes (s : State) (k : Nat) (f : Side → Side) : (updSide s k f).routes = s.routes := rfl
@[simp] theorem updSide_pack (s : State) (k : Nat) (f : Side → Side) : (updSide s k f).pack = s.pack := rfl

@[simp] theorem putShuttle_pending (s : State) (k : Nat) (v : Shuttle) : (putShuttle s k v).pending = s.pending := rfl
@[simp] theorem putShuttle_freeCount (s : State) (k : Nat) (v : Shuttle) : (putShuttle s k v).freeCount = s.freeCount := rfl
@[simp] theorem putShuttle_nowNs (s : State) (k : Nat) (v : Shuttle) : (putShuttle s k v).nowNs = s.nowNs := rfl
@[simp] theorem putShuttle_rackNs (s : State) (k : Nat) (v : Shuttle) : (putShuttle s k v).rackNs = s.rackNs := rfl
@[simp] theorem putShuttle_reply (s : State) (k : Nat) (v : Shuttle) : (putShuttle s k v).reply = s.reply := rfl
@[simp] theorem putShuttle_fuses (s : State) (k : Nat) (v : Shuttle) : (putShuttle s k v).fuses = s.fuses := rfl
@[simp] theorem putShuttle_tiles (s : State) (k : Nat) (v : Shuttle) : (putShuttle s k v).tiles = s.tiles := rfl
@[simp] theorem putShuttle_sides (s : State) (k : Nat) (v : Shuttle) : (putShuttle s k v).sides = s.sides := rfl
@[simp] theorem putShuttle_laces (s : State) (k : Nat) (v : Shuttle) : (putShuttle s k v).laces = s.laces := rfl
@[simp] theorem putShuttle_hbm (s : State) (k : Nat) (v : Shuttle) : (putShuttle s k v).hbm = s.hbm := rfl
@[simp] theorem putShuttle_hbmDies (s : State) (k : Nat) (v : Shuttle) : (putShuttle s k v).hbmDies = s.hbmDies := rfl
@[simp] theorem putShuttle_quadCounts (s : State) (k : Nat) (v : Shuttle) : (putShuttle s k v).quadCounts = s.quadCounts := rfl
@[simp] theorem putShuttle_net (s : State) (k : Nat) (v : Shuttle) : (putShuttle s k v).net = s.net := rfl
@[simp] theorem putShuttle_parts (s : State) (k : Nat) (v : Shuttle) : (putShuttle s k v).parts = s.parts := rfl
@[simp] theorem putShuttle_events (s : State) (k : Nat) (v : Shuttle) : (putShuttle s k v).events = s.events := rfl
@[simp] theorem putShuttle_sec (s : State) (k : Nat) (v : Shuttle) : (putShuttle s k v).sec = s.sec := rfl
@[simp] theorem putShuttle_links (s : State) (k : Nat) (v : Shuttle) : (putShuttle s k v).links = s.links := rfl
@[simp] theorem putShuttle_routes (s : State) (k : Nat) (v : Shuttle) : (putShuttle s k v).routes = s.routes := rfl
@[simp] theorem putShuttle_pack (s : State) (k : Nat) (v : Shuttle) : (putShuttle s k v).pack = s.pack := rfl

@[simp] theorem updShuttle_pending (s : State) (k : Nat) (f : Shuttle → Shuttle) : (updShuttle s k f).pending = s.pending := rfl
@[simp] theorem updShuttle_freeCount (s : State) (k : Nat) (f : Shuttle → Shuttle) : (updShuttle s k f).freeCount = s.freeCount := rfl
@[simp] theorem updShuttle_nowNs (s : State) (k : Nat) (f : Shuttle → Shuttle) : (updShuttle s k f).nowNs = s.nowNs := rfl
@[simp] theorem updShuttle_rackNs (s : State) (k : Nat) (f : Shuttle → Shuttle) : (updShuttle s k f).rackNs = s.rackNs := rfl
@[simp] theorem updShuttle_reply (s : State) (k : Nat) (f : Shuttle → Shuttle) : (updShuttle s k f).reply = s.reply := rfl
@[simp] theorem updShuttle_fuses (s : State) (k : Nat) (f : Shuttle → Shuttle) : (updShuttle s k f).fuses = s.fuses := rfl
@[simp] theorem updShuttle_tiles (s : State) (k : Nat) (f : Shuttle → Shuttle) : (updShuttle s k f).tiles = s.tiles := rfl
@[simp] theorem updShuttle_sides (s : State) (k : Nat) (f : Shuttle → Shuttle) : (updShuttle s k f).sides = s.sides := rfl
@[simp] theorem updShuttle_laces (s : State) (k : Nat) (f : Shuttle → Shuttle) : (updShuttle s k f).laces = s.laces := rfl
@[simp] theorem updShuttle_hbm (s : State) (k : Nat) (f : Shuttle → Shuttle) : (updShuttle s k f).hbm = s.hbm := rfl
@[simp] theorem updShuttle_hbmDies (s : State) (k : Nat) (f : Shuttle → Shuttle) : (updShuttle s k f).hbmDies = s.hbmDies := rfl
@[simp] theorem updShuttle_quadCounts (s : State) (k : Nat) (f : Shuttle → Shuttle) : (updShuttle s k f).quadCounts = s.quadCounts := rfl
@[simp] theorem updShuttle_net (s : State) (k : Nat) (f : Shuttle → Shuttle) : (updShuttle s k f).net = s.net := rfl
@[simp] theorem updShuttle_parts (s : State) (k : Nat) (f : Shuttle → Shuttle) : (updShuttle s k f).parts = s.parts := rfl
@[simp] theorem updShuttle_events (s : State) (k : Nat) (f : Shuttle → Shuttle) : (updShuttle s k f).events = s.events := rfl
@[simp] theorem updShuttle_sec (s : State) (k : Nat) (f : Shuttle → Shuttle) : (updShuttle s k f).sec = s.sec := rfl
@[simp] theorem updShuttle_links (s : State) (k : Nat) (f : Shuttle → Shuttle) : (updShuttle s k f).links = s.links := rfl
@[simp] theorem updShuttle_routes (s : State) (k : Nat) (f : Shuttle → Shuttle) : (updShuttle s k f).routes = s.routes := rfl
@[simp] theorem updShuttle_pack (s : State) (k : Nat) (f : Shuttle → Shuttle) : (updShuttle s k f).pack = s.pack := rfl

@[simp] theorem putHbm_pending (s : State) (k : Nat) (v : HbmQuad) : (putHbm s k v).pending = s.pending := rfl
@[simp] theorem putHbm_freeCount (s : State) (k : Nat) (v : HbmQuad) : (putHbm s k v).freeCount = s.freeCount := rfl
@[simp] theorem putHbm_nowNs (s : State) (k : Nat) (v : HbmQuad) : (putHbm s k v).nowNs = s.nowNs := rfl
@[simp] theorem putHbm_rackNs (s : State) (k : Nat) (v : HbmQuad) : (putHbm s k v).rackNs = s.rackNs := rfl
@[simp] theorem putHbm_reply (s : State) (k : Nat) (v : HbmQuad) : (putHbm s k v).reply = s.reply := rfl
@[simp] theorem putHbm_fuses (s : State) (k : Nat) (v : HbmQuad) : (putHbm s k v).fuses = s.fuses := rfl
@[simp] theorem putHbm_tiles (s : State) (k : Nat) (v : HbmQuad) : (putHbm s k v).tiles = s.tiles := rfl
@[simp] theorem putHbm_sides (s : State) (k : Nat) (v : HbmQuad) : (putHbm s k v).sides = s.sides := rfl
@[simp] theorem putHbm_laces (s : State) (k : Nat) (v : HbmQuad) : (putHbm s k v).laces = s.laces := rfl
@[simp] theorem putHbm_hbmDies (s : State) (k : Nat) (v : HbmQuad) : (putHbm s k v).hbmDies = s.hbmDies := rfl
@[simp] theorem putHbm_quadCounts (s : State) (k : Nat) (v : HbmQuad) : (putHbm s k v).quadCounts = s.quadCounts := rfl
@[simp] theorem putHbm_shuttles (s : State) (k : Nat) (v : HbmQuad) : (putHbm s k v).shuttles = s.shuttles := rfl
@[simp] theorem putHbm_net (s : State) (k : Nat) (v : HbmQuad) : (putHbm s k v).net = s.net := rfl
@[simp] theorem putHbm_parts (s : State) (k : Nat) (v : HbmQuad) : (putHbm s k v).parts = s.parts := rfl
@[simp] theorem putHbm_events (s : State) (k : Nat) (v : HbmQuad) : (putHbm s k v).events = s.events := rfl
@[simp] theorem putHbm_sec (s : State) (k : Nat) (v : HbmQuad) : (putHbm s k v).sec = s.sec := rfl
@[simp] theorem putHbm_links (s : State) (k : Nat) (v : HbmQuad) : (putHbm s k v).links = s.links := rfl
@[simp] theorem putHbm_routes (s : State) (k : Nat) (v : HbmQuad) : (putHbm s k v).routes = s.routes := rfl
@[simp] theorem putHbm_pack (s : State) (k : Nat) (v : HbmQuad) : (putHbm s k v).pack = s.pack := rfl

@[simp] theorem updHbmDie_pending (s : State) (k : Nat) (f : HbmDie → HbmDie) : (updHbmDie s k f).pending = s.pending := rfl
@[simp] theorem updHbmDie_freeCount (s : State) (k : Nat) (f : HbmDie → HbmDie) : (updHbmDie s k f).freeCount = s.freeCount := rfl
@[simp] theorem updHbmDie_nowNs (s : State) (k : Nat) (f : HbmDie → HbmDie) : (updHbmDie s k f).nowNs = s.nowNs := rfl
@[simp] theorem updHbmDie_rackNs (s : State) (k : Nat) (f : HbmDie → HbmDie) : (updHbmDie s k f).rackNs = s.rackNs := rfl
@[simp] theorem updHbmDie_reply (s : State) (k : Nat) (f : HbmDie → HbmDie) : (updHbmDie s k f).reply = s.reply := rfl
@[simp] theorem updHbmDie_fuses (s : State) (k : Nat) (f : HbmDie → HbmDie) : (updHbmDie s k f).fuses = s.fuses := rfl
@[simp] theorem updHbmDie_tiles (s : State) (k : Nat) (f : HbmDie → HbmDie) : (updHbmDie s k f).tiles = s.tiles := rfl
@[simp] theorem updHbmDie_sides (s : State) (k : Nat) (f : HbmDie → HbmDie) : (updHbmDie s k f).sides = s.sides := rfl
@[simp] theorem updHbmDie_laces (s : State) (k : Nat) (f : HbmDie → HbmDie) : (updHbmDie s k f).laces = s.laces := rfl
@[simp] theorem updHbmDie_hbm (s : State) (k : Nat) (f : HbmDie → HbmDie) : (updHbmDie s k f).hbm = s.hbm := rfl
@[simp] theorem updHbmDie_quadCounts (s : State) (k : Nat) (f : HbmDie → HbmDie) : (updHbmDie s k f).quadCounts = s.quadCounts := rfl
@[simp] theorem updHbmDie_shuttles (s : State) (k : Nat) (f : HbmDie → HbmDie) : (updHbmDie s k f).shuttles = s.shuttles := rfl
@[simp] theorem updHbmDie_net (s : State) (k : Nat) (f : HbmDie → HbmDie) : (updHbmDie s k f).net = s.net := rfl
@[simp] theorem updHbmDie_parts (s : State) (k : Nat) (f : HbmDie → HbmDie) : (updHbmDie s k f).parts = s.parts := rfl
@[simp] theorem updHbmDie_events (s : State) (k : Nat) (f : HbmDie → HbmDie) : (updHbmDie s k f).events = s.events := rfl
@[simp] theorem updHbmDie_sec (s : State) (k : Nat) (f : HbmDie → HbmDie) : (updHbmDie s k f).sec = s.sec := rfl
@[simp] theorem updHbmDie_links (s : State) (k : Nat) (f : HbmDie → HbmDie) : (updHbmDie s k f).links = s.links := rfl
@[simp] theorem updHbmDie_routes (s : State) (k : Nat) (f : HbmDie → HbmDie) : (updHbmDie s k f).routes = s.routes := rfl
@[simp] theorem updHbmDie_pack (s : State) (k : Nat) (f : HbmDie → HbmDie) : (updHbmDie s k f).pack = s.pack := rfl

@[simp] theorem assertEvent_pending (k : Nat) (v : W64) (s : State) : (assertEvent k v s).pending = s.pending := rfl
@[simp] theorem assertEvent_freeCount (k : Nat) (v : W64) (s : State) : (assertEvent k v s).freeCount = s.freeCount := rfl
@[simp] theorem assertEvent_nowNs (k : Nat) (v : W64) (s : State) : (assertEvent k v s).nowNs = s.nowNs := rfl
@[simp] theorem assertEvent_rackNs (k : Nat) (v : W64) (s : State) : (assertEvent k v s).rackNs = s.rackNs := rfl
@[simp] theorem assertEvent_reply (k : Nat) (v : W64) (s : State) : (assertEvent k v s).reply = s.reply := rfl
@[simp] theorem assertEvent_fuses (k : Nat) (v : W64) (s : State) : (assertEvent k v s).fuses = s.fuses := rfl
@[simp] theorem assertEvent_tiles (k : Nat) (v : W64) (s : State) : (assertEvent k v s).tiles = s.tiles := rfl
@[simp] theorem assertEvent_sides (k : Nat) (v : W64) (s : State) : (assertEvent k v s).sides = s.sides := rfl
@[simp] theorem assertEvent_laces (k : Nat) (v : W64) (s : State) : (assertEvent k v s).laces = s.laces := rfl
@[simp] theorem assertEvent_hbm (k : Nat) (v : W64) (s : State) : (assertEvent k v s).hbm = s.hbm := rfl
@[simp] theorem assertEvent_hbmDies (k : Nat) (v : W64) (s : State) : (assertEvent k v s).hbmDies = s.hbmDies := rfl
@[simp] theorem assertEvent_quadCounts (k : Nat) (v : W64) (s : State) : (assertEvent k v s).quadCounts = s.quadCounts := rfl
@[simp] theorem assertEvent_shuttles (k : Nat) (v : W64) (s : State) : (assertEvent k v s).shuttles = s.shuttles := rfl
@[simp] theorem assertEvent_net (k : Nat) (v : W64) (s : State) : (assertEvent k v s).net = s.net := rfl
@[simp] theorem assertEvent_parts (k : Nat) (v : W64) (s : State) : (assertEvent k v s).parts = s.parts := rfl
@[simp] theorem assertEvent_sec (k : Nat) (v : W64) (s : State) : (assertEvent k v s).sec = s.sec := rfl
@[simp] theorem assertEvent_links (k : Nat) (v : W64) (s : State) : (assertEvent k v s).links = s.links := rfl
@[simp] theorem assertEvent_routes (k : Nat) (v : W64) (s : State) : (assertEvent k v s).routes = s.routes := rfl
@[simp] theorem assertEvent_pack (k : Nat) (v : W64) (s : State) : (assertEvent k v s).pack = s.pack := rfl

@[simp] theorem setCondition_pending (k : Nat) (b : Bool) (v : W64) (s : State) : (setCondition k b v s).pending = s.pending := rfl
@[simp] theorem setCondition_freeCount (k : Nat) (b : Bool) (v : W64) (s : State) : (setCondition k b v s).freeCount = s.freeCount := rfl
@[simp] theorem setCondition_nowNs (k : Nat) (b : Bool) (v : W64) (s : State) : (setCondition k b v s).nowNs = s.nowNs := rfl
@[simp] theorem setCondition_rackNs (k : Nat) (b : Bool) (v : W64) (s : State) : (setCondition k b v s).rackNs = s.rackNs := rfl
@[simp] theorem setCondition_reply (k : Nat) (b : Bool) (v : W64) (s : State) : (setCondition k b v s).reply = s.reply := rfl
@[simp] theorem setCondition_fuses (k : Nat) (b : Bool) (v : W64) (s : State) : (setCondition k b v s).fuses = s.fuses := rfl
@[simp] theorem setCondition_tiles (k : Nat) (b : Bool) (v : W64) (s : State) : (setCondition k b v s).tiles = s.tiles := rfl
@[simp] theorem setCondition_sides (k : Nat) (b : Bool) (v : W64) (s : State) : (setCondition k b v s).sides = s.sides := rfl
@[simp] theorem setCondition_laces (k : Nat) (b : Bool) (v : W64) (s : State) : (setCondition k b v s).laces = s.laces := rfl
@[simp] theorem setCondition_hbm (k : Nat) (b : Bool) (v : W64) (s : State) : (setCondition k b v s).hbm = s.hbm := rfl
@[simp] theorem setCondition_hbmDies (k : Nat) (b : Bool) (v : W64) (s : State) : (setCondition k b v s).hbmDies = s.hbmDies := rfl
@[simp] theorem setCondition_quadCounts (k : Nat) (b : Bool) (v : W64) (s : State) : (setCondition k b v s).quadCounts = s.quadCounts := rfl
@[simp] theorem setCondition_shuttles (k : Nat) (b : Bool) (v : W64) (s : State) : (setCondition k b v s).shuttles = s.shuttles := rfl
@[simp] theorem setCondition_net (k : Nat) (b : Bool) (v : W64) (s : State) : (setCondition k b v s).net = s.net := rfl
@[simp] theorem setCondition_parts (k : Nat) (b : Bool) (v : W64) (s : State) : (setCondition k b v s).parts = s.parts := rfl
@[simp] theorem setCondition_sec (k : Nat) (b : Bool) (v : W64) (s : State) : (setCondition k b v s).sec = s.sec := rfl
@[simp] theorem setCondition_links (k : Nat) (b : Bool) (v : W64) (s : State) : (setCondition k b v s).links = s.links := rfl
@[simp] theorem setCondition_routes (k : Nat) (b : Bool) (v : W64) (s : State) : (setCondition k b v s).routes = s.routes := rfl
@[simp] theorem setCondition_pack (k : Nat) (b : Bool) (v : W64) (s : State) : (setCondition k b v s).pack = s.pack := rfl

@[simp] theorem answer_pending (k : Nat) (d : Bytes) (s : State) : (answer k d s).pending = s.pending := rfl
@[simp] theorem answer_freeCount (k : Nat) (d : Bytes) (s : State) : (answer k d s).freeCount = s.freeCount := rfl
@[simp] theorem answer_nowNs (k : Nat) (d : Bytes) (s : State) : (answer k d s).nowNs = s.nowNs := rfl
@[simp] theorem answer_rackNs (k : Nat) (d : Bytes) (s : State) : (answer k d s).rackNs = s.rackNs := rfl
@[simp] theorem answer_fuses (k : Nat) (d : Bytes) (s : State) : (answer k d s).fuses = s.fuses := rfl
@[simp] theorem answer_tiles (k : Nat) (d : Bytes) (s : State) : (answer k d s).tiles = s.tiles := rfl
@[simp] theorem answer_sides (k : Nat) (d : Bytes) (s : State) : (answer k d s).sides = s.sides := rfl
@[simp] theorem answer_laces (k : Nat) (d : Bytes) (s : State) : (answer k d s).laces = s.laces := rfl
@[simp] theorem answer_hbm (k : Nat) (d : Bytes) (s : State) : (answer k d s).hbm = s.hbm := rfl
@[simp] theorem answer_hbmDies (k : Nat) (d : Bytes) (s : State) : (answer k d s).hbmDies = s.hbmDies := rfl
@[simp] theorem answer_quadCounts (k : Nat) (d : Bytes) (s : State) : (answer k d s).quadCounts = s.quadCounts := rfl
@[simp] theorem answer_shuttles (k : Nat) (d : Bytes) (s : State) : (answer k d s).shuttles = s.shuttles := rfl
@[simp] theorem answer_net (k : Nat) (d : Bytes) (s : State) : (answer k d s).net = s.net := rfl
@[simp] theorem answer_parts (k : Nat) (d : Bytes) (s : State) : (answer k d s).parts = s.parts := rfl
@[simp] theorem answer_events (k : Nat) (d : Bytes) (s : State) : (answer k d s).events = s.events := rfl
@[simp] theorem answer_sec (k : Nat) (d : Bytes) (s : State) : (answer k d s).sec = s.sec := rfl
@[simp] theorem answer_links (k : Nat) (d : Bytes) (s : State) : (answer k d s).links = s.links := rfl
@[simp] theorem answer_routes (k : Nat) (d : Bytes) (s : State) : (answer k d s).routes = s.routes := rfl
@[simp] theorem answer_pack (k : Nat) (d : Bytes) (s : State) : (answer k d s).pack = s.pack := rfl

@[simp] theorem idle_pending (s : State) : (idle s).pending = s.pending := rfl
@[simp] theorem idle_freeCount (s : State) : (idle s).freeCount = s.freeCount := rfl
@[simp] theorem idle_reply (s : State) : (idle s).reply = s.reply := rfl
@[simp] theorem idle_fuses (s : State) : (idle s).fuses = s.fuses := rfl
@[simp] theorem idle_tiles (s : State) : (idle s).tiles = s.tiles := rfl
@[simp] theorem idle_sides (s : State) : (idle s).sides = s.sides := rfl
@[simp] theorem idle_laces (s : State) : (idle s).laces = s.laces := rfl
@[simp] theorem idle_hbm (s : State) : (idle s).hbm = s.hbm := rfl
@[simp] theorem idle_hbmDies (s : State) : (idle s).hbmDies = s.hbmDies := rfl
@[simp] theorem idle_quadCounts (s : State) : (idle s).quadCounts = s.quadCounts := rfl
@[simp] theorem idle_shuttles (s : State) : (idle s).shuttles = s.shuttles := rfl
@[simp] theorem idle_net (s : State) : (idle s).net = s.net := rfl
@[simp] theorem idle_parts (s : State) : (idle s).parts = s.parts := rfl
@[simp] theorem idle_events (s : State) : (idle s).events = s.events := rfl
@[simp] theorem idle_sec (s : State) : (idle s).sec = s.sec := rfl
@[simp] theorem idle_links (s : State) : (idle s).links = s.links := rfl
@[simp] theorem idle_routes (s : State) : (idle s).routes = s.routes := rfl
@[simp] theorem idle_pack (s : State) : (idle s).pack = s.pack := rfl

@[simp] theorem getTile_putTile (s : State) (k : Nat) (v : Tile) : getTile (putTile s k v) k = v := by
  simp [getTile, putTile, sUpd]

theorem getTile_putTile_ne (s : State) (k j : Nat) (v : Tile) (h : j ≠ k) : getTile (putTile s k v) j = getTile s j := by
  by_cases hq : j / 1024 = k / 1024
  · have hr : j % 1024 ≠ k % 1024 := by omega
    simp [getTile, putTile, sUpd, hq, sGet_sPut_ne _ _ _ _ _ hr]
  · simp [getTile, putTile, sUpd, sGet_sPut_ne _ _ _ _ _ hq]

@[simp] theorem getPart_putPart (s : State) (k : Nat) (v : Part) : getPart (putPart s k v) k = v := by
  simp [getPart, putPart]

theorem getPart_putPart_ne (s : State) (k j : Nat) (v : Part) (h : j ≠ k) : getPart (putPart s k v) j = getPart s j := by
  simp [getPart, putPart, sGet_sPut_ne _ _ _ _ _ h]

@[simp] theorem getSide_putSide (s : State) (k : Nat) (v : Side) : getSide (putSide s k v) k = v := by
  simp [getSide, putSide]

theorem getSide_putSide_ne (s : State) (k j : Nat) (v : Side) (h : j ≠ k) : getSide (putSide s k v) j = getSide s j := by
  simp [getSide, putSide, sGet_sPut_ne _ _ _ _ _ h]

@[simp] theorem getShuttle_putShuttle (s : State) (k : Nat) (v : Shuttle) : getShuttle (putShuttle s k v) k = v := by
  simp [getShuttle, putShuttle]

theorem getShuttle_putShuttle_ne (s : State) (k j : Nat) (v : Shuttle) (h : j ≠ k) : getShuttle (putShuttle s k v) j = getShuttle s j := by
  simp [getShuttle, putShuttle, sGet_sPut_ne _ _ _ _ _ h]

@[simp] theorem getHbm_putHbm (s : State) (k : Nat) (v : HbmQuad) : getHbm (putHbm s k v) k = v := by
  simp [getHbm, putHbm]

theorem getHbm_putHbm_ne (s : State) (k j : Nat) (v : HbmQuad) (h : j ≠ k) : getHbm (putHbm s k v) j = getHbm s j := by
  simp [getHbm, putHbm, sGet_sPut_ne _ _ _ _ _ h]

@[simp] theorem getPart_putTile (s : State) (k : Nat) (v : Tile) (j : Nat) : getPart (putTile s k v) j = getPart s j := rfl
@[simp] theorem getSide_putTile (s : State) (k : Nat) (v : Tile) (j : Nat) : getSide (putTile s k v) j = getSide s j := rfl
@[simp] theorem getShuttle_putTile (s : State) (k : Nat) (v : Tile) (j : Nat) : getShuttle (putTile s k v) j = getShuttle s j := rfl
@[simp] theorem getHbm_putTile (s : State) (k : Nat) (v : Tile) (j : Nat) : getHbm (putTile s k v) j = getHbm s j := rfl
@[simp] theorem getTile_putPart (s : State) (k : Nat) (v : Part) (j : Nat) : getTile (putPart s k v) j = getTile s j := rfl
@[simp] theorem getSide_putPart (s : State) (k : Nat) (v : Part) (j : Nat) : getSide (putPart s k v) j = getSide s j := rfl
@[simp] theorem getShuttle_putPart (s : State) (k : Nat) (v : Part) (j : Nat) : getShuttle (putPart s k v) j = getShuttle s j := rfl
@[simp] theorem getHbm_putPart (s : State) (k : Nat) (v : Part) (j : Nat) : getHbm (putPart s k v) j = getHbm s j := rfl
@[simp] theorem getTile_updPart (s : State) (k : Nat) (f : Part → Part) (j : Nat) : getTile (updPart s k f) j = getTile s j := rfl
@[simp] theorem getSide_updPart (s : State) (k : Nat) (f : Part → Part) (j : Nat) : getSide (updPart s k f) j = getSide s j := rfl
@[simp] theorem getShuttle_updPart (s : State) (k : Nat) (f : Part → Part) (j : Nat) : getShuttle (updPart s k f) j = getShuttle s j := rfl
@[simp] theorem getHbm_updPart (s : State) (k : Nat) (f : Part → Part) (j : Nat) : getHbm (updPart s k f) j = getHbm s j := rfl
@[simp] theorem getTile_updHold (s : State) (k : Nat) (f : Hold → Hold) (j : Nat) : getTile (updHold s k f) j = getTile s j := rfl
@[simp] theorem getSide_updHold (s : State) (k : Nat) (f : Hold → Hold) (j : Nat) : getSide (updHold s k f) j = getSide s j := rfl
@[simp] theorem getShuttle_updHold (s : State) (k : Nat) (f : Hold → Hold) (j : Nat) : getShuttle (updHold s k f) j = getShuttle s j := rfl
@[simp] theorem getHbm_updHold (s : State) (k : Nat) (f : Hold → Hold) (j : Nat) : getHbm (updHold s k f) j = getHbm s j := rfl
@[simp] theorem getTile_putSide (s : State) (k : Nat) (v : Side) (j : Nat) : getTile (putSide s k v) j = getTile s j := rfl
@[simp] theorem getPart_putSide (s : State) (k : Nat) (v : Side) (j : Nat) : getPart (putSide s k v) j = getPart s j := rfl
@[simp] theorem getShuttle_putSide (s : State) (k : Nat) (v : Side) (j : Nat) : getShuttle (putSide s k v) j = getShuttle s j := rfl
@[simp] theorem getHbm_putSide (s : State) (k : Nat) (v : Side) (j : Nat) : getHbm (putSide s k v) j = getHbm s j := rfl
@[simp] theorem getTile_updSide (s : State) (k : Nat) (f : Side → Side) (j : Nat) : getTile (updSide s k f) j = getTile s j := rfl
@[simp] theorem getPart_updSide (s : State) (k : Nat) (f : Side → Side) (j : Nat) : getPart (updSide s k f) j = getPart s j := rfl
@[simp] theorem getShuttle_updSide (s : State) (k : Nat) (f : Side → Side) (j : Nat) : getShuttle (updSide s k f) j = getShuttle s j := rfl
@[simp] theorem getHbm_updSide (s : State) (k : Nat) (f : Side → Side) (j : Nat) : getHbm (updSide s k f) j = getHbm s j := rfl
@[simp] theorem getTile_putShuttle (s : State) (k : Nat) (v : Shuttle) (j : Nat) : getTile (putShuttle s k v) j = getTile s j := rfl
@[simp] theorem getPart_putShuttle (s : State) (k : Nat) (v : Shuttle) (j : Nat) : getPart (putShuttle s k v) j = getPart s j := rfl
@[simp] theorem getSide_putShuttle (s : State) (k : Nat) (v : Shuttle) (j : Nat) : getSide (putShuttle s k v) j = getSide s j := rfl
@[simp] theorem getHbm_putShuttle (s : State) (k : Nat) (v : Shuttle) (j : Nat) : getHbm (putShuttle s k v) j = getHbm s j := rfl
@[simp] theorem getTile_updShuttle (s : State) (k : Nat) (f : Shuttle → Shuttle) (j : Nat) : getTile (updShuttle s k f) j = getTile s j := rfl
@[simp] theorem getPart_updShuttle (s : State) (k : Nat) (f : Shuttle → Shuttle) (j : Nat) : getPart (updShuttle s k f) j = getPart s j := rfl
@[simp] theorem getSide_updShuttle (s : State) (k : Nat) (f : Shuttle → Shuttle) (j : Nat) : getSide (updShuttle s k f) j = getSide s j := rfl
@[simp] theorem getHbm_updShuttle (s : State) (k : Nat) (f : Shuttle → Shuttle) (j : Nat) : getHbm (updShuttle s k f) j = getHbm s j := rfl
@[simp] theorem getTile_putHbm (s : State) (k : Nat) (v : HbmQuad) (j : Nat) : getTile (putHbm s k v) j = getTile s j := rfl
@[simp] theorem getPart_putHbm (s : State) (k : Nat) (v : HbmQuad) (j : Nat) : getPart (putHbm s k v) j = getPart s j := rfl
@[simp] theorem getSide_putHbm (s : State) (k : Nat) (v : HbmQuad) (j : Nat) : getSide (putHbm s k v) j = getSide s j := rfl
@[simp] theorem getShuttle_putHbm (s : State) (k : Nat) (v : HbmQuad) (j : Nat) : getShuttle (putHbm s k v) j = getShuttle s j := rfl
@[simp] theorem getTile_updHbmDie (s : State) (k : Nat) (f : HbmDie → HbmDie) (j : Nat) : getTile (updHbmDie s k f) j = getTile s j := rfl
@[simp] theorem getPart_updHbmDie (s : State) (k : Nat) (f : HbmDie → HbmDie) (j : Nat) : getPart (updHbmDie s k f) j = getPart s j := rfl
@[simp] theorem getSide_updHbmDie (s : State) (k : Nat) (f : HbmDie → HbmDie) (j : Nat) : getSide (updHbmDie s k f) j = getSide s j := rfl
@[simp] theorem getShuttle_updHbmDie (s : State) (k : Nat) (f : HbmDie → HbmDie) (j : Nat) : getShuttle (updHbmDie s k f) j = getShuttle s j := rfl
@[simp] theorem getHbm_updHbmDie (s : State) (k : Nat) (f : HbmDie → HbmDie) (j : Nat) : getHbm (updHbmDie s k f) j = getHbm s j := rfl
@[simp] theorem getTile_assertEvent (k : Nat) (v : W64) (s : State) (j : Nat) : getTile (assertEvent k v s) j = getTile s j := rfl
@[simp] theorem getPart_assertEvent (k : Nat) (v : W64) (s : State) (j : Nat) : getPart (assertEvent k v s) j = getPart s j := rfl
@[simp] theorem getSide_assertEvent (k : Nat) (v : W64) (s : State) (j : Nat) : getSide (assertEvent k v s) j = getSide s j := rfl
@[simp] theorem getShuttle_assertEvent (k : Nat) (v : W64) (s : State) (j : Nat) : getShuttle (assertEvent k v s) j = getShuttle s j := rfl
@[simp] theorem getHbm_assertEvent (k : Nat) (v : W64) (s : State) (j : Nat) : getHbm (assertEvent k v s) j = getHbm s j := rfl
@[simp] theorem getTile_setCondition (k : Nat) (b : Bool) (v : W64) (s : State) (j : Nat) : getTile (setCondition k b v s) j = getTile s j := rfl
@[simp] theorem getPart_setCondition (k : Nat) (b : Bool) (v : W64) (s : State) (j : Nat) : getPart (setCondition k b v s) j = getPart s j := rfl
@[simp] theorem getSide_setCondition (k : Nat) (b : Bool) (v : W64) (s : State) (j : Nat) : getSide (setCondition k b v s) j = getSide s j := rfl
@[simp] theorem getShuttle_setCondition (k : Nat) (b : Bool) (v : W64) (s : State) (j : Nat) : getShuttle (setCondition k b v s) j = getShuttle s j := rfl
@[simp] theorem getHbm_setCondition (k : Nat) (b : Bool) (v : W64) (s : State) (j : Nat) : getHbm (setCondition k b v s) j = getHbm s j := rfl
@[simp] theorem getTile_answer (k : Nat) (d : Bytes) (s : State) (j : Nat) : getTile (answer k d s) j = getTile s j := rfl
@[simp] theorem getPart_answer (k : Nat) (d : Bytes) (s : State) (j : Nat) : getPart (answer k d s) j = getPart s j := rfl
@[simp] theorem getSide_answer (k : Nat) (d : Bytes) (s : State) (j : Nat) : getSide (answer k d s) j = getSide s j := rfl
@[simp] theorem getShuttle_answer (k : Nat) (d : Bytes) (s : State) (j : Nat) : getShuttle (answer k d s) j = getShuttle s j := rfl
@[simp] theorem getHbm_answer (k : Nat) (d : Bytes) (s : State) (j : Nat) : getHbm (answer k d s) j = getHbm s j := rfl

@[simp] theorem getPart_updPart (s : State) (k : Nat) (f : Part → Part) : getPart (updPart s k f) k = f (getPart s k) := by
  simp [updPart]

theorem getPart_updPart_ne (s : State) (k j : Nat) (f : Part → Part) (h : j ≠ k) : getPart (updPart s k f) j = getPart s j :=
  getPart_putPart_ne s k j _ h

@[simp] theorem getSide_updSide (s : State) (k : Nat) (f : Side → Side) : getSide (updSide s k f) k = f (getSide s k) := by
  simp [updSide]

theorem getSide_updSide_ne (s : State) (k j : Nat) (f : Side → Side) (h : j ≠ k) : getSide (updSide s k f) j = getSide s j :=
  getSide_putSide_ne s k j _ h

@[simp] theorem getShuttle_updShuttle (s : State) (k : Nat) (f : Shuttle → Shuttle) : getShuttle (updShuttle s k f) k = f (getShuttle s k) := by
  simp [updShuttle]

theorem getShuttle_updShuttle_ne (s : State) (k j : Nat) (f : Shuttle → Shuttle) (h : j ≠ k) : getShuttle (updShuttle s k f) j = getShuttle s j :=
  getShuttle_putShuttle_ne s k j _ h

@[simp] theorem getPart_updHold (s : State) (k : Nat) (f : Hold → Hold) :
    getPart (updHold s k f) k = { getPart s k with hold := f (getPart s k).hold } := by
  simp [updHold]

/-- The partition that owns a quadrant depends on the quadrants in force alone. -/
theorem ownerOf_congr (s t : State) (h : ∀ p, (getPart t p).active.quads = (getPart s p).active.quads) (g : Nat) :
    ownerOf t g = ownerOf s g := by
  simp [ownerOf, h]

@[simp] theorem inBeat_repaired (w : W128) (t : Tile) : (inBeat w t).repaired = t.repaired := rfl
@[simp] theorem inBeat_banks (w : W128) (t : Tile) : (inBeat w t).banks = t.banks := rfl
@[simp] theorem inBeat_board (w : W128) (t : Tile) : (inBeat w t).board = t.board := rfl
@[simp] theorem inBeat_land (w : W128) (t : Tile) : (inBeat w t).land = t.land := rfl
@[simp] theorem inBeat_knots (w : W128) (t : Tile) : (inBeat w t).knots = t.knots := rfl
@[simp] theorem inBeat_s (w : W128) (t : Tile) : (inBeat w t).s = t.s := rfl
@[simp] theorem inBeat_p (w : W128) (t : Tile) : (inBeat w t).p = t.p := rfl
@[simp] theorem inBeat_v (w : W128) (t : Tile) : (inBeat w t).v = t.v := rfl
@[simp] theorem inBeat_m (w : W128) (t : Tile) : (inBeat w t).m = t.m := rfl
@[simp] theorem inBeat_h (w : W128) (t : Tile) : (inBeat w t).h = t.h := rfl
@[simp] theorem inBeat_issue (w : W128) (t : Tile) : (inBeat w t).issue = t.issue := rfl
@[simp] theorem inBeat_mode (w : W128) (t : Tile) : (inBeat w t).mode = t.mode := rfl
@[simp] theorem inBeat_push (w : W128) (t : Tile) : (inBeat w t).push = t.push := rfl
@[simp] theorem inBeat_fault (w : W128) (t : Tile) : (inBeat w t).fault = t.fault := rfl
@[simp] theorem inBeat_trace (w : W128) (t : Tile) : (inBeat w t).trace = t.trace := rfl
@[simp] theorem inBeat_hoop (w : W128) (t : Tile) : (inBeat w t).hoop = t.hoop := rfl
@[simp] theorem inBeat_arr (w : W128) (t : Tile) : (inBeat w t).arr = t.arr := rfl
@[simp] theorem inBeat_flights (w : W128) (t : Tile) : (inBeat w t).flights = t.flights := rfl
@[simp] theorem inBeat_num (w : W128) (t : Tile) : (inBeat w t).num = t.num := rfl
@[simp] theorem inBeat_drain (w : W128) (t : Tile) : (inBeat w t).drain = t.drain := rfl
@[simp] theorem inBeat_outQ (w : W128) (t : Tile) : (inBeat w t).outQ = t.outQ := rfl
@[simp] theorem inBeat_openMsg (w : W128) (t : Tile) : (inBeat w t).openMsg = t.openMsg := rfl
@[simp] theorem inBeat_hold (w : W128) (t : Tile) : (inBeat w t).hold = t.hold := rfl
@[simp] theorem inBeat_outHist (w : W128) (t : Tile) : (inBeat w t).outHist = t.outHist := rfl
@[simp] theorem inBeat_reads (w : W128) (t : Tile) : (inBeat w t).reads = t.reads := rfl
@[simp] theorem inBeat_counts (w : W128) (t : Tile) : (inBeat w t).counts = t.counts := rfl
@[simp] theorem inBeat_beat_acc (w : W128) (t : Tile) : (inBeat w t).beat.acc = t.beat.acc := rfl
@[simp] theorem inBeat_beat_windows (w : W128) (t : Tile) : (inBeat w t).beat.windows = t.beat.windows := rfl
@[simp] theorem inBeat_beat_named (w : W128) (t : Tile) : (inBeat w t).beat.named = t.beat.named := rfl
@[simp] theorem inBeat_beat_ptrOps (w : W128) (t : Tile) : (inBeat w t).beat.ptrOps = t.beat.ptrOps := rfl
@[simp] theorem inBeat_beat_boardOps (w : W128) (t : Tile) : (inBeat w t).beat.boardOps = t.beat.boardOps := rfl
@[simp] theorem inBeat_beat_loopEnd (w : W128) (t : Tile) : (inBeat w t).beat.loopEnd = t.beat.loopEnd := rfl
@[simp] theorem inBeat_beat_loopBack (w : W128) (t : Tile) : (inBeat w t).beat.loopBack = t.beat.loopBack := rfl
@[simp] theorem inBeat_beat_branched (w : W128) (t : Tile) : (inBeat w t).beat.branched = t.beat.branched := rfl
@[simp] theorem inBeat_beat_branch (w : W128) (t : Tile) : (inBeat w t).beat.branch = t.beat.branch := rfl
@[simp] theorem inBeat_beat_pre (w : W128) (t : Tile) : (inBeat w t).beat.pre = t.beat.pre := rfl
@[simp] theorem inBeat_beat_landBank (w : W128) (t : Tile) : (inBeat w t).beat.landBank = t.beat.landBank := rfl
@[simp] theorem inBeat_beat_issued (w : W128) (t : Tile) : (inBeat w t).beat.issued = t.beat.issued := rfl
@[simp] theorem inBeat_beat_idle (w : W128) (t : Tile) : (inBeat w t).beat.idle = t.beat.idle := rfl
@[simp] theorem inBeat_beat_gates (w : W128) (t : Tile) : (inBeat w t).beat.gates = t.beat.gates := rfl
@[simp] theorem inBeat_beat_out (w : W128) (t : Tile) : (inBeat w t).beat.out = t.beat.out := rfl
@[simp] theorem inBeat_beat_brHist1 (w : W128) (t : Tile) : (inBeat w t).beat.brHist1 = t.beat.brHist1 := rfl
@[simp] theorem inBeat_beat_brHist2 (w : W128) (t : Tile) : (inBeat w t).beat.brHist2 = t.beat.brHist2 := rfl
@[simp] theorem inBeat_beat_isHead (w : W128) (t : Tile) : (inBeat w t).beat.isHead = tileIsHead t := rfl
@[simp] theorem inBeat_beat_word (w : W128) (t : Tile) : (inBeat w t).beat.word = w := rfl
@[simp] theorem getS_inBeat (w : W128) (t : Tile) (r : BitVec 4) : getS (inBeat w t) r = getS t r := rfl
@[simp] theorem getP_inBeat (w : W128) (t : Tile) (r : BitVec 3) : getP (inBeat w t) r = getP t r := rfl
@[simp] theorem getV_inBeat (w : W128) (t : Tile) (r : BitVec 3) : getV (inBeat w t) r = getV t r := rfl
@[simp] theorem getM_inBeat (w : W128) (t : Tile) (r : BitVec 2) : getM (inBeat w t) r = getM t r := rfl
@[simp] theorem getH_inBeat (w : W128) (t : Tile) (r : BitVec 3) : getH (inBeat w t) r = getH t r := rfl
@[simp] theorem getEntry_inBeat (w : W128) (t : Tile) (r : BitVec 4) : getEntry (inBeat w t) r = getEntry t r := rfl
@[simp] theorem getKnot_inBeat (w : W128) (t : Tile) (r : BitVec 3) : getKnot (inBeat w t) r = getKnot t r := rfl
@[simp] theorem getWord_inBeat (w : W128) (t : Tile) (b : BitVec 4) (n : BitVec 7) : getWord (inBeat w t) b n = getWord t b n := rfl
@[simp] theorem activeBank_inBeat (w : W128) (t : Tile) : activeBank (inBeat w t) = activeBank t := rfl
@[simp] theorem ungatedEntry_inBeat (w : W128) (t : Tile) (b : BitVec 4) (n k : Nat) : ungatedEntry (inBeat w t) b n k = ungatedEntry t b n k := rfl
@[simp] theorem ctxOf_sBeat (s : State) (p x y : Nat) : (ctxOf s p x y).sBeat = (getPart s p).hold.sBeat := rfl
@[simp] theorem ctxOf_wBeat (s : State) (p x y : Nat) : (ctxOf s p x y).wBeat = (getPart s p).hold.wBeat := rfl

/-- A tile of no owner, or of a partition that does not execute, is not acted on. -/
theorem slotCmd_idle (s : State) (a : TileAt) (w : W128) (f : BeatCtx → Tile → Tile) (h : tileRuns s a = false) :
    slotCmd s a w f = .next s := by
  simp [slotCmd, h]

/-- A slot command that raises no fault, no rescale event and loses no drained word changes its tile and nothing else. -/
theorem slotCmd_quiet (s : State) (a : TileAt) (w : W128) (f : BeatCtx → Tile → Tile) (t : Tile) (h : tileRuns s a = true)
    (ht : f (ctxOf s (ownerOfAt s a) a.x.toNat a.y.toNat) (inBeat w (getTile s (atKey a))) = t)
    (hf : t.fault = (getTile s (atKey a)).fault) (hr : t.num.rescale = (getTile s (atKey a)).num.rescale)
    (hl : t.drain.lost = (getTile s (atKey a)).drain.lost) : slotCmd s a w f = .next (putTile s (atKey a) t) := by
  simp only [slotCmd, h, if_true, putTileChecked, atKey] at *
  simp [ht, hf, hr, hl]

@[simp] theorem step_front (s : State) (c : Instr) (r : List Instr) (h : s.pending = c :: r) :
    step s = exec c { s with pending := r } := by
  simp [step, h]

end Sys2Proof.Laws
end

