-- ==== Sys2Proof/Laws/Shuttles.lean ====
section
/-! SUPPORT. What reading a thread after an update of its shuttle gives, and what issuing does. -/

namespace Sys2Proof.Laws
open Sys2Proof.Machine

@[simp] theorem putShuttle_putShuttle (s : State) (n : Nat) (v w : Shuttle) : putShuttle (putShuttle s n v) n w = putShuttle s n w := by
  simp [putShuttle]

@[simp] theorem getThread_putThread (h : Shuttle) (t : Nat) (v : Thread) : getThread (putThread h t v) t = v := by
  simp [getThread, putThread]

theorem getThread_putThread_ne (h : Shuttle) (t u : Nat) (v : Thread) (e : u ≠ t) : getThread (putThread h t v) u = getThread h u := by
  simp [getThread, putThread, sGet_sPut_ne _ _ _ _ _ e]

@[simp] theorem putThread_putThread (h : Shuttle) (t : Nat) (v w : Thread) : putThread (putThread h t v) t w = putThread h t w := by
  simp [putThread]

@[simp] theorem putThread_mem (h : Shuttle) (t : Nat) (v : Thread) : (putThread h t v).mem = h.mem := rfl
@[simp] theorem putThread_poison (h : Shuttle) (t : Nat) (v : Thread) : (putThread h t v).poison = h.poison := rfl
@[simp] theorem putThread_knots (h : Shuttle) (t : Nat) (v : Thread) : (putThread h t v).knots = h.knots := rfl
@[simp] theorem putThread_tags (h : Shuttle) (t : Nat) (v : Thread) : (putThread h t v).tags = h.tags := rfl
@[simp] theorem putThread_running (h : Shuttle) (t : Nat) (v : Thread) : (putThread h t v).running = h.running := rfl
@[simp] theorem putThread_channels (h : Shuttle) (t : Nat) (v : Thread) : (putThread h t v).channels = h.channels := rfl
@[simp] theorem putThread_queues (h : Shuttle) (t : Nat) (v : Thread) : (putThread h t v).queues = h.queues := rfl
@[simp] theorem putThread_senders (h : Shuttle) (t : Nat) (v : Thread) : (putThread h t v).senders = h.senders := rfl
@[simp] theorem putThread_icache (h : Shuttle) (t : Nat) (v : Thread) : (putThread h t v).icache = h.icache := rfl
@[simp] theorem putThread_requests (h : Shuttle) (t : Nat) (v : Thread) : (putThread h t v).requests = h.requests := rfl

@[simp] theorem localRead_putThread (h : Shuttle) (t : Nat) (v : Thread) (o n : Nat) : localRead (putThread h t v) o n = localRead h o n := rfl
@[simp] theorem localPoison_putThread (h : Shuttle) (t : Nat) (v : Thread) (o n : Nat) :
    localPoison (putThread h t v) o n = localPoison h o n := rfl

@[simp] theorem getShuttle_updThread (s : State) (n t : Nat) (f : Thread → Thread) :
    getShuttle (updThread s n t f) n = putThread (getShuttle s n) t (f (getThread (getShuttle s n) t)) := by
  simp [updThread]

@[simp] theorem updThread_putShuttle (s : State) (n t : Nat) (h : Shuttle) (f : Thread → Thread) :
    updThread (putShuttle s n h) n t f = putShuttle s n (putThread h t (f (getThread h t))) := by
  simp [updThread, updShuttle]

@[simp] theorem updShuttle_putShuttle (s : State) (n : Nat) (h : Shuttle) (f : Shuttle → Shuttle) :
    updShuttle (putShuttle s n h) n f = putShuttle s n (f h) := by
  simp [updShuttle]

/-- A place depends on the part and on the package's chip number alone. -/
theorem placeOf_congr (s u : State) (m : Nat) (a : W64) (size : Nat) (hf : u.fuses = s.fuses) (hl : u.links = s.links) :
    placeOf u m a size = placeOf s m a size := by
  unfold placeOf; rw [hf, hl]

@[simp] theorem placeOf_putShuttle (s : State) (n : Nat) (h : Shuttle) (m : Nat) (a : W64) (size : Nat) :
    placeOf (putShuttle s n h) m a size = placeOf s m a size := placeOf_congr _ _ _ _ _ rfl rfl

/-- A running thread that does not stand issues. -/
theorem mayIssue_running (s : State) (n t : Nat) (h1 : stands s n (getShuttle s n) t = false)
    (h2 : (getThread (getShuttle s n) t).state = 1) (h3 : (getShuttle s n).running = some (BitVec.ofNat 4 t)) :
    mayIssue s n t = some (getShuttle s n) := by
  simp [mayIssue, h1, h2, h3]

/-- An instruction of a running thread: its `pc` passes, and its effect follows. -/
theorem issue_running (s : State) (n t : Nat) (f : State → State) (h1 : stands s n (getShuttle s n) t = false)
    (h2 : (getThread (getShuttle s n) t).state = 1) (h3 : (getShuttle s n).running = some (BitVec.ofNat 4 t)) :
    issue n t f s = .next (f (putShuttle s n (putThread (getShuttle s n) t
      { getThread (getShuttle s n) t with pc := (getThread (getShuttle s n) t).pc + 4 }))) := by
  simp [issue, mayIssue_running s n t h1 h2 h3]

theorem atIssue_running (s : State) (n t : Nat) (f : State → State) (h1 : stands s n (getShuttle s n) t = false)
    (h2 : (getThread (getShuttle s n) t).state = 1) (h3 : (getShuttle s n).running = some (BitVec.ofNat 4 t)) :
    atIssue n t f s = .next (f (putShuttle s n (getShuttle s n))) := by
  simp [atIssue, mayIssue_running s n t h1 h2 h3]

end Sys2Proof.Laws
end

