-- ==== Sys2Proof/Safety.lean ====
section
/-! DEFINITION. What a safe step of the block is: it ends in a next state. -/

namespace Sys2Proof.Machine

/-- The outcome is a next state. -/
def runs : Host.Outcome State Fault Refusal → Bool
  | .next _ => true
  | _ => false

/-- The block never stops: from a state, `n` steps all answer a next state. -/
def safeFor : Nat → State → Bool
  | 0, _ => true
  | n + 1, s =>
    match step s with
    | .next s' => safeFor n s'
    | _ => false

end Sys2Proof.Machine
end

