-- ==== Sys2Proof/Tests/Slice0.lean ====
section
/-! SUPPORT. Tests: ill-formed commands, small steps whose results stand in the spec's tables, and for every statement with hypotheses
states and operands that meet them. -/

namespace Sys2Proof.Tests
set_option Elab.async false
open Sys2Proof.Machine Sys2Proof.Stmt

/-! ## Ill-formed commands -/

def a0 : TileAt := ⟨0, 0⟩
def sh0 : Requester := .shuttle 0 0

theorem test_ill_accessSize : problems (.tileWindowRead sh0 a0 0 12) = [.accessSize] := by decide
theorem test_ill_accessOffset : problems (.tileWindowWrite sh0 a0 4 (List.replicate 8 0)) = [.accessOffset] := by decide
theorem test_ill_keyLength : problems (.installerKeyWrite true [4]) = [.keyLength] := by decide
theorem test_ill_nonceLength : problems (.attestNonceWrite .maker []) = [.nonceLength] := by decide
theorem test_ill_grantLength : problems (.makerGrantWrite .installer [1]) = [.grantLength] := by decide
theorem test_ill_blobLength : problems (.laneMapWrite .installer []) = [.blobLength] := by decide
theorem test_ill_payloadLength : problems (.spoolDataFrame 10 0 0 (List.replicate 8193 0) 0) = [.payloadLength] := by decide +kernel
theorem test_ill_sectorLength : problems (.requestCompletion 0 0 (.beyondMissed [1])) = [.sectorLength] := by decide
theorem test_ill_bankNumber : problems (.hbmRefresh 0 0 64) = [.bankNumber] := by decide
theorem test_well_formed : wf (.tileWindowRead sh0 a0 8 8) = true := by decide

/-! ## Sample states -/

/-- Partition 1 holds quadrant 0 and runs a step. -/
def part1 : Part := { active := { quads := 1, key := [1] }, hold := { stepRuns := true } }

/-- A package whose start has completed. -/
def base : State :=
  { parts := [(1, part1)]
    pack := { start := { complete := true, state := 1 }, pins := { inReset := false, perst := false, vaux := true, resetPin := false } }
    sec := { roles := { installerKey := [1] } } }

/-- Tile (0, 0) of it. -/
def withTile (t : Tile) : State := { base with tiles := [(0, [(0, t)])] }

/-- The head of a hoop of one tile. -/
def head : Tile := { hoop := { source := 0, index := 0 } }

/-- The state after a command. -/
def after (c : Instr) (s : State) : State :=
  match exec c s with
  | .next t => t
  | _ => s

/-- Tile (0, 0) after a command. -/
def tileAfter (c : Instr) (s : State) : Tile := tile (after c s) a0

/-! ## Statements about the queue -/

theorem witness_StepRunsFrontCommand : ({ base with pending := [.mul a0 ⟨1, 2, 3⟩] } : State).pending = [.mul a0 ⟨1, 2, 3⟩] := rfl
theorem witness_EmptyQueueIdles : base.pending = [] := rfl
theorem witness_StepKeepsFusesAndTakesOneCommand :
    base.fuses = {} ∧ step { base with pending := [.pauseFrame 10 false] } = .next base := ⟨rfl, rfl⟩

/-! ## Scalar slot -/

/-- Registers s1 = 7, s2 = 3, s3 = −8; s4 is poisoned. -/
def scalars : Tile := { head with s := [(1, ⟨7, false⟩), (2, ⟨3, false⟩), (3, ⟨0xFFFFFFF8, false⟩), (4, ⟨1, true⟩)] }

theorem witness_ScalarOperations : tileRuns (withTile scalars) a0 = true := by decide +kernel

/-- The value that lands and the beat. -/
def lands (t : Tile) : List (W128 × Nat) := t.flights.map fun f => (f.value, f.due)

theorem test_add : lands (tileAfter (.add a0 ⟨5, 1, 2⟩) (withTile scalars)) = [(10, 1)] := by decide +kernel
theorem test_sub : lands (tileAfter (.sub a0 ⟨5, 2, 1⟩) (withTile scalars)) = [(0xFFFFFFFC, 1)] := by decide +kernel
theorem test_sra : lands (tileAfter (.sra a0 ⟨5, 3, 2⟩) (withTile scalars)) = [(0xFFFFFFFF, 1)] := by decide +kernel
theorem test_slt : lands (tileAfter (.slt a0 ⟨5, 3, 1⟩) (withTile scalars)) = [(1, 1)] := by decide +kernel
theorem test_sltu : lands (tileAfter (.sltu a0 ⟨5, 3, 1⟩) (withTile scalars)) = [(0, 1)] := by decide +kernel
theorem test_mul : lands (tileAfter (.mul a0 ⟨5, 1, 3⟩) (withTile scalars)) = [(0xFFFFFFC8, 2)] := by decide +kernel
theorem test_s0_is_not_written : lands (tileAfter (.add a0 ⟨0, 1, 2⟩) (withTile scalars)) = [] := by decide +kernel
theorem test_addi : lands (tileAfter (.addi a0 ⟨5, 1, 0x3FF⟩) (withTile scalars)) = [(6, 1)] := by decide +kernel
theorem test_lui : lands (tileAfter (.lui a0 5 1) (withTile scalars)) = [(0x40000, 1)] := by decide +kernel

/-- Pointer 1 names word 5 of bank 2, pointer 2 word 6 of bank 6; word 5 of bank 2 holds two halves. -/
def memory : Tile :=
  { scalars with p := [(1, ⟨2, 5, 1⟩), (2, ⟨6, 6, 2⟩), (3, ⟨9, 0, 0⟩)], banks := [(2 * 128 + 5, ⟨0x1111111122222222, false⟩)] }

theorem witness_PointersLoadsAndStores : tileRuns (withTile memory) a0 = true ∧ (getS (tile (withTile memory) a0) 1).poison = false
    ∧ CleanAccess (tile (withTile memory) a0) 9 127 ∧ CleanAccess (tile (withTile memory) a0) 2 5 := by
  unfold CleanAccess; decide +kernel

theorem test_sld_high_half : lands (tileAfter (.sld a0 ⟨5, 2, 5, 1⟩) (withTile memory)) = [(0x11111111, 2)] := by decide +kernel
theorem test_sst_low_half :
    getWord (tileAfter (.sst a0 ⟨1, 2, 5, 0⟩) (withTile memory)) 2 5 = ⟨0x1111111100000007, false⟩ := by decide +kernel
theorem test_sst_poison : (getWord (tileAfter (.sst a0 ⟨4, 2, 5, 0⟩) (withTile memory)) 2 5).poison = true := by decide +kernel
theorem test_setps : (tileAfter (.setps a0 1 9) (withTile memory)).beat.ptrOps = [⟨1, some ⟨2, 5, 9⟩⟩] := by decide +kernel

theorem witness_BranchesAndTheirHead : tileRuns (withTile scalars) a0 = true ∧ Controls scalars ∧ FarFromLoopEnd scalars
    ∧ (getS scalars 1).poison = false ∧ tileIsHead { scalars with hoop := { source := 1 } } = false
    ∧ tileRuns (withTile { scalars with hoop := { source := 1 } }) a0 = true := by
  unfold Controls FarFromLoopEnd; decide +kernel

theorem test_bz_not_taken : (tileAfter (.bz a0 1 9) (withTile scalars)).issue.brTaken = false := by decide +kernel
theorem test_jmp_two_delay_slots : (tileAfter (.jmp a0 9) (withTile scalars)).issue.delayLeft = 2 := by decide +kernel

theorem witness_LoopStarts : tileRuns (withTile scalars) a0 = true ∧ Controls scalars ∧ scalars.issue.loop0.active = false
    ∧ scalars.issue.curAddr.toNat % 64 < (63 : BitVec 6).toNat ∧ (getS scalars 1).data.toNat ≠ 0 := by
  unfold Controls; decide +kernel

theorem test_loop_zero_is_1024 : (tileAfter (.loop a0 ⟨0, false, 9, 0⟩) (withTile scalars)).issue.loop0.remaining = 1024 := by decide +kernel

/-- A mode change is under way; h1 names something. -/
def modes : Tile := { scalars with mode := { due := some 1 }, h := [(1, 0xFFFF300000000000)], s := [(1, ⟨0x30, false⟩), (2, ⟨3, false⟩)] }

theorem witness_ModePushAndHoop : tileRuns (withTile modes) a0 = true ∧ scalars.mode.due = none ∧ (⟨5, 3, 16⟩ : Mode).mfmt.toNat ≤ 5
    ∧ 4 ≤ (⟨0, 0, 4⟩ : Mode).srBits.toNat ∧ modes.mode.due = some 1 ∧ modes.fault.valid = false ∧ getH modes 0 = 0 ∧ getH modes 1 ≠ 0
    ∧ modes.push.sWords = [] ∧ modes.push.kWords = [] ∧ modes.outQ.length ≤ 14 ∧ (getS modes 2).poison = false
    ∧ 14 < (List.replicate 15 (⟨0, true, true, false, false⟩ : OutWord)).length := by decide +kernel

theorem witness_ModePushAndHoop_moder : (getS { scalars with s := [(1, ⟨0x80, false⟩)] } 1).data.extractLsb' 4 10 = (0 : BitVec 3) ++ (0 : BitVec 2) ++ (8 : BitVec 5) := by
  decide +kernel

theorem test_mode_due : (tileAfter (.mode a0 ⟨1, 1, 8⟩) (withTile scalars)).mode.due = some 3 := by decide +kernel
theorem test_mode_overlap : (tileAfter (.mode a0 ⟨1, 1, 8⟩) (withTile modes)).fault.code = 0x0F := by decide +kernel
theorem test_push_words : ((tileAfter (.push a0 1 1 2) (withTile modes)).outQ.map (·.data)) = [0xFFFF300000000000, 0x0000000300000030] := by
  decide +kernel

theorem witness_ScalarFaultsAreRecorded : tileRuns (withTile scalars) a0 = true ∧ scalars.fault.valid = false ∧ (getS scalars 4).poison = true
    ∧ 10 ≤ (10 : BitVec 4).toNat ∧ tileIsHead { scalars with issue := { delayLeft := 1 } } = true ∧ Controls scalars
    ∧ (1 : BitVec 6).toNat ≤ (1 : BitVec 7).toNat % 64 := by
  unfold Controls; decide +kernel

theorem test_bad_bank : (tileAfter (.sld a0 ⟨5, 10, 0, 0⟩) (withTile scalars)).fault.code = 0x04 := by decide +kernel

/-! ## Vector slot -/

/-- v1 = eight BF16 values 1.0 but lane 0 = 2.0, v2 = eight values 3.0; m1 has bits 0 and 7. -/
def vectors : Tile :=
  { scalars with
    v := [(1, ⟨0x3F803F803F803F803F803F803F804000, false⟩), (2, ⟨0x40404040404040404040404040404040, false⟩)]
    m := [(1, ⟨0x81, false⟩)] }

/-- Types 0, no broadcast, no increment: vd, a, b, c. -/
def vf (vd : BitVec 3) (a b c : BitVec 4) : VF := ⟨vd, a, b, c, 0, 0, false⟩

theorem witness_VectorLanesAndComparisons : tileRuns (withTile vectors) a0 = true
    ∧ (∀ e ∈ ([1, 2, 3, 5, 6, 7, 8, 9, 10] : List Nat), vLegal vectors e (vf 3 1 2 0) = true) ∧ vLegal vectors 4 (vf 3 1 2 2) = true := by
  decide +kernel

theorem witness_VectorSelectsAndReductions : tileRuns (withTile vectors) a0 = true ∧ vLegal vectors 0x0B (vf 3 1 2 1) = true
    ∧ vLegal vectors 0x0C (vf 3 1 0 1) = true ∧ vLegal vectors 0x0D (vf 3 1 0 1) = true ∧ vLegal vectors 0x18 (vf 3 1 0 0) = true
    ∧ vLegal vectors 0x19 (vf 3 1 0 0) = true ∧ vLegal vectors 0x20 (vf 3 1 0 0) = true := by decide +kernel

theorem witness_VectorCompensatedPairs : vLegal vectors 0x1C ⟨2, 1, 2, 0, 1, 0, false⟩ = true ∧ vLegal vectors 0x1D ⟨2, 1, 2, 0, 1, 0, false⟩ = true := by
  decide +kernel

theorem witness_VectorConversionsAndLookups : vLegal vectors 0x10 ⟨3, 1, 0, 5, 1, 0, false⟩ = true ∧ vectors.mode.cur.rmode = 0
    ∧ vLegal vectors 0x14 ⟨3, 1, 0, 5, 4, 0, false⟩ = true ∧ vLegal vectors 0x15 (vf 3 1 0 4) = true := by decide +kernel

/-- A vector result whose last beat this is. -/
def landing : Flight :=
  { unit := 1, target := .vector, reg := 3, exec := 0, due := 1, value := 5, bits := 0xFF, part := true, pair := false, aux := 0, op := 0, ty := 0
    poison := false, sat := 0, nan := 0 }

theorem witness_VectorResultsLand : tileRuns (withTile { vectors with flights := [landing] }) a0 = true ∧ landing.due ≤ beatNo base a0 + 1
    ∧ landing.reg = (3 : BitVec 3).setWidth 4 := by decide +kernel

theorem witness_IllegalSlotsFault : tileRuns (withTile vectors) a0 = true ∧ vectors.fault.valid = false
    ∧ vLegal vectors 1 ⟨3, 1, 2, 0, 7, 0, false⟩ = false ∧ vLegal vectors 0x10 ⟨3, 1, 0, 7, 7, 0, false⟩ = false := by decide +kernel

theorem test_vadd_bf16 : lands (tileAfter (.vadd a0 (vf 3 1 2 0)) (withTile vectors)) = [(0x408040804080408040804080408040A0, 4)] := by
  decide +kernel
theorem test_vcmplt : lands (tileAfter (.vcmplt a0 (vf 3 2 1 0)) (withTile vectors)) = [(0, 2)] := by decide +kernel
theorem test_vsel : lands (tileAfter (.vsel a0 (vf 3 1 2 1)) (withTile vectors)) = [(0x3F804040404040404040404040404000, 2)] := by
  decide +kernel
theorem test_vrmax : lands (tileAfter (.vrmax a0 (vf 3 1 0 0)) (withTile vectors)) = [(0x40004000400040004000400040004000, 6)] := by
  decide +kernel
theorem test_vcmpr : lands (tileAfter (.vcmpr a0 (vf 3 1 0 1)) (withTile vectors)) = [(0x3F804000, 3)] := by decide +kernel
theorem test_illegal_v : (tileAfter (.vadd a0 ⟨3, 1, 2, 0, 7, 0, false⟩) (withTile vectors)).fault.code = 0x02 := by decide +kernel

/-! ## Matrix slot -/

/-- The tile is the hoop's top row, west column and bottom; its group's phase 0; its pointers 1 and 2 name data. -/
def matrix : Tile :=
  { memory with hoop := { top := true, west := true, bottom := true }
                arr := { groupMfmt := 1, groupStat := 0, stat := [(0, ⟨7, false⟩), (1, ⟨8, false⟩)], acc := [(0, ⟨0x3F800000, false⟩)] } }

/-- An output that reaches its row of bank 6. -/
def output : MFlight := { op := 2, exec := 0, bank := 6, row := 63, position := 3, accum := true, formed := true, zero := true, value := 0x40000000 }

def accumulating : State :=
  { base with parts := [(1, { part1 with hold := { part1.hold with sBeat := 9 } })]
              tiles := [(0, [(0, { matrix with arr := { matrix.arr with pipe := [output] } })])] }

theorem witness_MatrixStatements : tileRuns (withTile matrix) a0 = true ∧ matrix.arr.groupMfmt = matrix.mode.cur.mfmt
    ∧ matrix.arr.groupStat = (⟨0, 1, 2, false, false, false⟩ : MF).stat ∧ matrix.mode.cur.mfmt ≠ 2 ∧ matrix.mode.cur.mfmt ≠ 5
    ∧ CleanRow matrix 2 := by unfold CleanRow; decide +kernel

theorem witness_MatrixAccumulation : tileRuns accumulating a0 = true ∧ (tile accumulating a0).arr.pipe = [output]
    ∧ output.exec + 9 ≤ beatNo accumulating a0 ∧ (tile accumulating a0).beat.acc = [] := by decide +kernel
theorem witness_MatrixAccumulation_gates (n k : Nat) : ungatedEntry (tile accumulating a0) output.bank n k = none := by
  have h : (tile accumulating a0).board = [] := by decide +kernel
  simp [ungatedEntry, h, sGet]

theorem test_mload : sGet {} 1 (tileAfter (.mload a0 ⟨0, 1, 2, false, false, false⟩) (withTile matrix)).arr.stat = (⟨7, false⟩ : Pz 64) := by
  decide +kernel
theorem test_mdrain : getWord (tileAfter (.mdrain a0 ⟨0, 1, 2, false, false, false⟩) (withTile matrix)) 6 6 = ⟨0x3F800000, false⟩ := by
  decide +kernel
theorem test_accumulate : getWord (tileAfter (.mmacAccumulate a0) accumulating) 6 127 = ⟨0x4000000000000000, false⟩ := by decide +kernel

/-! ## Landing, stores, drains, gates and knots -/

theorem witness_LandingSlotOperations : tileRuns (withTile memory) a0 = true ∧ (getP memory 1).bank.toNat < 6 ∧ CleanAccess memory 2 5
    ∧ armLegal memory 3 2 5 1 false false = true ∧ armLegal memory 3 2 5 128 false false = false ∧ memory.fault.valid = false := by
  unfold CleanAccess; decide +kernel

/-- Entries 2 and 3 are a pair. -/
def pairBoard : Tile :=
  { memory with board := [(2, { armed := true, paired := true, length := 4, inUse := true }), (3, { armed := true, paired := true, length := 4 })] }

theorem witness_LandingSlotOperations_flip : (getEntry pairBoard 2).armed = true ∧ (getEntry pairBoard (2 ^^^ 1)).armed = true
    ∧ (getEntry pairBoard 2).paired = true ∧ (getEntry pairBoard (2 ^^^ 1)).paired = true
    ∧ (getEntry pairBoard 2).length = (getEntry pairBoard (2 ^^^ 1)).length := by decide +kernel

/-- v1 holds two words; pointer 3 names a row of bank 7. -/
def stores : Tile := { memory with v := [(1, ⟨0xAAAABBBBCCCCDDDD1111222233334444, false⟩)], p := [(1, ⟨2, 5, 1⟩), (3, ⟨7, 7, 2⟩)] }

theorem witness_StoresAndDrains : tileRuns (withTile stores) a0 = true ∧ (getP stores 1).bank.toNat < 6 ∧ 6 ≤ (getP stores 3).bank.toNat
    ∧ (getP stores 3).bank.toNat < 10 ∧ (getP stores 3).bank ≠ activeBank stores ∧ stores.beat.acc = [] ∧ CleanAccess stores 2 5 := by
  unfold CleanAccess; decide +kernel

theorem test_arm_length_zero_is_128 : (tileAfter (.arm a0 0 3 0 false false) (withTile { stores with p := [(3, ⟨7, 0, 2⟩)] })).beat.boardOps
    = [.arm 0 ⟨7, 0, 128, false, false, 0, false, false, true, 0, 0⟩] := by decide +kernel
theorem test_st_word : getWord (tileAfter (.st a0 1 1 false 1) (withTile stores)) 2 5 = ⟨0xAAAABBBBCCCCDDDD, false⟩ := by decide +kernel
theorem test_st_row_is_even : getWord (tileAfter (.st a0 1 3 false 0) (withTile stores)) 7 6 = ⟨0x1111222233334444, false⟩ := by decide +kernel
theorem test_drainv_order : (tileAfter (.drainv a0 1 2) (withTile stores)).drain.buf.map (fun w => (w.data, w.seq))
    = [(0x1111222233334444, 0), (0xAAAABBBBCCCCDDDD, 1)] := by decide +kernel

/-- Knot 0 counts 3, knot 1 is locked by the tile, knot 2 by another one. -/
def knots : Tile := { scalars with knots := [(0, { count := 3 }), (1, { state := 1, ownerTile := true }), (2, { state := 1, ownerTile := true, ownerX := 1 })] }

theorem witness_LocalKnotOperations : tileRuns (withTile knots) a0 = true ∧ (getKnot knots 0).state = 0
    ∧ (getKnot knots 0).count.toNat + 255 ≤ 65535 ∧ (3 : Byte).toNat ≤ (getKnot knots 0).count.toNat ∧ (getKnot knots 0).count.toNat < (4 : Byte).toNat
    ∧ LockedBy a0 (getKnot knots 1) ∧ (getKnot knots 2).state ≠ 0 ∧ ¬ LockedBy a0 (getKnot knots 2) := by unfold LockedBy; decide +kernel

theorem test_take : (getKnot (tileAfter (.take a0 ⟨false, 0, 2⟩) (withTile knots)) 0).count = 1 := by decide +kernel
theorem test_wait_holds : (tileAfter (.wait a0 ⟨false, 0, 4⟩) (withTile knots)).hold.waits.length = 1 := by decide +kernel

theorem witness_GatesAndChannelPushes : tileRuns (withTile { memory with h := [(1, 0xFFFF300000000000)] }) a0 = true ∧ getH memory 0 = 0
    ∧ getH { memory with h := [(1, 0xFFFF300000000000)] } 1 ≠ 0 ∧ memory.openMsg = 0 ∧ (getP memory 1).bank.toNat < 6 ∧ CleanAccess memory 2 5
    ∧ memory.push.kWords = [] ∧ memory.push.sWords = [] ∧ memory.outQ.length ≤ 14 := by unfold CleanAccess; decide +kernel

theorem witness_IdleAndStopWords : tileRuns (withTile scalars) a0 = true ∧ tileIsHead scalars = true ∧ scalars.issue.delayLeft = 0
    ∧ scalars.beat.pre = none ∧ scalars.issue.stopped = false ∧ scalars.issue.ended = false ∧ scalars.issue.idleLeft = 0 := by decide +kernel

theorem test_idle_word : (tileAfter (.idleWord a0 5) (withTile scalars)).issue.idleLeft = 5 := by decide +kernel
theorem test_stop_word : (tileAfter (.stopWord a0 0) (withTile scalars)).issue.stopped = true := by decide +kernel


/-! ## Beats, holds and windows -/

/-- No step runs. -/
def idle : State := { base with parts := [(1, { part1 with hold := {} })] }

/-- A halt is in force; a run of held W-beats has reached its limit. -/
def halted : State := { base with parts := [(1, { part1 with hold := { stepRuns := true, haltAt := some 0 } })] }
def longHeld : State := { base with parts := [(1, { part1 with hold := { stepRuns := true, inRun := true, limit := 4, counted := 4 } })] }

theorem witness_BeatsAdvanceTheCounts : partExists base 1 = true ∧ replaying base 1 = false ∧ executes (hold base 1) = true
    ∧ partExists idle 1 = true ∧ replaying idle 1 = false ∧ executes (hold idle 1) = false := by decide +kernel
theorem witness_HaltsFreezeAndHoldsTimeOut : partExists halted 1 = true ∧ (hold halted 1).haltAt.isSome = true ∧ (hold halted 1).frozen = false
    ∧ haltInForce (hold halted 1) = true ∧ (getPart halted 1).debugging.onHalt = 0 ∧ partExists longHeld 1 = true
    ∧ (hold longHeld 1).haltAt = none ∧ (hold longHeld 1).inRun = true ∧ (hold longHeld 1).limit.toNat ≤ (hold longHeld 1).counted := by
  decide +kernel

/-- A read that has waited 4,096 W-beats; one more. -/
def lateTile : Tile := { reads := [⟨sh0, none, 8, 8, 0, none⟩] }
def lateWindow : State :=
  { base with parts := [(1, { part1 with hold := { stepRuns := true, wBeat := 4096 } })], tiles := [(0, [(0, lateTile)])] }

/-- The region of tile (0, 0) has its clock. -/
def clocked (s : State) : State := { s with pack := { s.pack with regions := [(0, { state := 1 })] } }

theorem witness_TileWindowAccesses : regionFor (clocked base) sh0 (tileOffset 0 0 0x3FF8) = .tile 0 0 0x3FF8
    ∧ mayReach (clocked base) (.tile 0 0 0x3FF8) sh0 = true ∧ misaligned64 (tileOffset 0 0 0x3FF8) 8 = false
    ∧ regionFor (clocked base) sh0 (tileOffset 0 0 8) = .tile 0 0 8 ∧ mayReach (clocked base) (.tile 0 0 8) sh0 = true
    ∧ waitsForBank (clocked base) sh0 (tileOffset 0 0 0x3FF8) 8 = none
    ∧ waitsForBank (clocked base) sh0 (tileOffset 0 0 8) 8 = some (0, 0, 8) := by decide +kernel
theorem witness_TileWindowAccesses_late : (tile lateWindow a0).reads = [⟨sh0, none, 8, 8, 0, none⟩]
    ∧ 0 + 4096 ≤ (hold lateWindow (ownerOf lateWindow (quadOf 0 0))).wBeat ∧ (tile lateWindow a0).counts.timeouts.toNat < 65535 := by
  decide +kernel
theorem witness_TileWindowAccesses_writes : tileGated (clocked base) 0 0 = false ∧ tileGated (clocked idle) 0 0 = false
    ∧ tilesExecute (hold base (ownerOf base (quadOf 0 0))) = true ∧ ownerOf base (quadOf 0 0) ≠ 0
    ∧ tilesExecute (hold idle (ownerOf idle (quadOf 0 0))) = false ∧ (0x27F8 : BitVec 14).toNat / 1024 = 9 ∧ (activeBank {}).toNat ≠ 9
    ∧ (tile base a0).counts.refused.toNat < 65535 := by decide +kernel

theorem test_window_write : (tileAfter (.tileWindowWrite sh0 a0 0x27F8 [1, 2, 3, 4, 5, 6, 7, 8]) (clocked idle)).banks = [(1279, ⟨0x0807060504030201, false⟩)] := by
  decide +kernel
theorem test_window_write_refused : (after (.tileWindowWrite sh0 a0 8 [1, 2, 3, 4, 5, 6, 7, 8]) (clocked base)).reply.status = 5 := by decide +kernel

/-- A word waits at the stop of tile (0, 0), for its armed entry 1. -/
def waitingWord : TrackWord := ⟨5, 0, none, 0, 1, 3, 0x1122334455667788, false⟩
def laneStop : State :=
  { base with sides := [(sideOfTile 0 0, { lanes := [(laneOfTile 0, { deliver := [waitingWord] })] })]
              tiles := [(0, [(0, { board := [(1, { armed := true, inUse := true, length := 4 })] })])] }

theorem witness_LaneStopGivesWord : tileOfLane (sideOfTile 0 0) (laneOfTile 0) (0 % 256) = (0, 0)
    ∧ (getLane (getSide laneStop (sideOfTile 0 0)) (laneOfTile 0)).deliver = [waitingWord] ∧ waitsAtStop waitingWord = true
    ∧ waitingWord.col.toNat = 0 % 256 ∧ (tile laneStop a0).land = [] ∧ (getEntry (tile laneStop a0) 1).armed = true
    ∧ (getEntry (tile laneStop a0) 1).paired = false ∧ waitingWord.offset.toNat < (getEntry (tile laneStop a0) 1).length.toNat
    ∧ (getEntry (tile laneStop a0) 1).received.toNat < (getEntry (tile laneStop a0) 1).length.toNat := by decide +kernel

theorem test_lane_stop : (tileAfter (.laneStopTakesWord a0) laneStop).land = [⟨0, 0x1122334455667788, 3, 1, false, false⟩] := by decide +kernel

/-! ## Stream engine sides -/

/-- A side with something in its inbox, and one whose slots are all busy. -/
def withSide (sd : Side) : State := { base with sides := [(0, sd)] }

/-- A fetch of one word to one tile (Table 7-1): kind 1, tag 5. -/
def fetch : DescSlot := { active := true, w0 := 0x5000001, w1 := 0x40, w2 := 0x01000000, w3 := 0 }
def drain : DescSlot := { fetch with w0 := 0x5000002 }
def accepting : State := withSide { inbox := [.desc fetch.w0 fetch.w1 fetch.w2 fetch.w3 0 0] }
def full : State :=
  withSide { inbox := [.desc fetch.w0 fetch.w1 fetch.w2 fetch.w3 0 0], slots := (List.range 80).map fun i => (i, fetch) }

theorem witness_SidesAcceptDescriptors : diesOf base.fuses.variant = 8 ∧ isShuttle sh0 = true ∧ mayReach base (.sideWin 0 0x2000) sh0 = true
    ∧ triggersQueued (getSide base 0) < 8
    ∧ isService base (.stepService 1) = true ∧ mayReach base (.sideWin 0 0x2018) (.stepService 1) = true
    ∧ (getSide accepting 0).stalled = [] ∧ freeSlot (getSide accepting 0) = some 0 ∧ checkDescriptor accepting 0 fetch = 0
    ∧ (getSide full 0).stalled = [] ∧ freeSlot (getSide full 0) = none := by decide +kernel

theorem test_accept : (getSide (after (.sideAcceptDescriptor 0 0) accepting) 0).slots = [(0, fetch)] := by decide +kernel

/-- A fetch whose first word has not been read, over bytes 0x40 to 0x47. -/
def fetching : State :=
  { withSide { slots := [(3, fetch)] } with hbm := [(0, { bytes := [(0x40, 0x11), (0x47, 0x88)] })] }
def bufferedWord (i : Nat) : BufferedWrite := ⟨3, 0, 0x40 + 8 * i, BitVec.ofNat 64 i, false, 0, 0, 0, 0⟩
def buffered : State := withSide { slots := [(3, drain)], writes := (List.range 4).map bufferedWord }

theorem witness_HbmAccessesOfASide : fetch.active = true ∧ fetch.finished = none ∧ dKind fetch = 1 ∧ fetch.sent ≤ 0 ∧ 0 < dTotal fetch
    ∧ fetch.ready = [] ∧ dAddr fetch (dPlace fetch 0).1 (dPlace fetch 0).2.1 (dPlace fetch 0).2.2 = 0x40 ∧ CleanSector fetching 0 0x40
    ∧ (sGet {} 3 (getSide fetching 0).slots : DescSlot) = fetch := by unfold CleanSector; decide +kernel
theorem witness_HbmAccessesOfASide_writes : (getSide buffered 0).writes = (List.range 4).map bufferedWord ∧ 0x40 % 32 = 0
    ∧ dCommit (sGet {} 3 (getSide buffered 0).slots) = false ∧ diesOf base.fuses.variant = 8
    ∧ ∀ i : Fin 4, (bufferedWord i).offset = 0x40 + 8 * i ∧ (bufferedWord i).data = BitVec.ofNat 64 i ∧ (bufferedWord i).poison = false
      ∧ (bufferedWord i).slot = (bufferedWord 0).slot := by decide +kernel

theorem test_hbm_uncorrectable :
    (sGet {} 3 (getSide (after (.hbmAccessComplete 0 0 (.slotWord 3 0) .uncorrectable) fetching) 0).slots : DescSlot).ready = [(0, ⟨0, true⟩)] := by
  decide +kernel
theorem test_hbm_read : (sGet {} 3 (getSide (after (.hbmAccessComplete 0 0 (.slotWord 3 0) .clean) fetching) 0).slots : DescSlot).ready
    = [(0, ⟨0x8800000000000011, false⟩)] := by decide +kernel
theorem test_hbm_write : (getHbm (after (.hbmAccessComplete 0 0 .writeBuffer .clean) buffered) 0).bytes = [(0x48, 1), (0x50, 2), (0x58, 3)] := by
  decide +kernel

/-- A word of stream 1 has arrived on lane 0 for a drain of that entry, or for none. -/
def arrived : DrainTrackWord := ⟨0, 0, 0, 0, 0x1234, false, false, 1, 0, false, false, false, false⟩
def claimed : State := withSide { slots := [(3, drain)], lanes := [(0, { drain := [arrived] })] }
def unclaimed : State := withSide { lanes := [(0, { drain := [arrived] })] }
def committing : State :=
  withSide { slots := [(3, { drain with w0 := 0x5000012 })], lanes := [(0, { drain := [{ arrived with poison := true }] })] }

theorem witness_DrainWordArrives : (getLane (getSide claimed 0) 0).drain.find? (fun w => w.left == 0) = some arrived
    ∧ claimer (getSide claimed 0) 0 arrived = some 3 ∧ dCommit drain = false ∧ (getSide claimed 0).writes.length < 512
    ∧ (getLane (getSide unclaimed 0) 0).drain.find? (fun w => w.left == 0) = some arrived ∧ claimer (getSide unclaimed 0) 0 arrived = none
    ∧ arrived.emitted = false
    ∧ (getLane (getSide committing 0) 0).drain.find? (fun w => w.left == 0) = some { arrived with poison := true }
    ∧ claimer (getSide committing 0) 0 { arrived with poison := true } = some 3 ∧ dCommit { drain with w0 := 0x5000012 } = true
    ∧ (hold committing (ownerOf committing (quadOfSide 0))).haltAt = none := by decide +kernel

/-- Fetches that have moved all: a quiet one, and one whose record finds no ring. -/
def quiet : DescSlot := { fetch with w0 := 0x5000041, leftSeg := 1 }
def ringless : DescSlot := { fetch with leftSeg := 1 }

theorem witness_DescriptorEnds : quiet.active = true ∧ completion {} 0 { slots := [(3, quiet)] } 3 = some 0 ∧ bitAt 6 quiet.w0.toNat = true
    ∧ bitAt 5 quiet.w0.toNat = false ∧ completion {} 0 { slots := [(3, ringless)] } 3 = some 0 ∧ bitAt 6 ringless.w0.toNat = false
    ∧ ringSize { slots := [(3, ringless)] } = none ∧ (getSide (withSide { slots := [(3, quiet)] }) 0) = { slots := [(3, quiet)] }
    ∧ laceOf (withSide { slots := [(3, quiet)] }) 0 = {} ∧ (hold (withSide { slots := [(3, quiet)] }) 1).wBeat = 0 := by decide +kernel

theorem test_drain_word : (getSide (after (.drainWordArrives 0 0 0) claimed) 0).writes.map (fun b => (b.offset, b.data)) = [(0x40, 0x1234)] := by
  decide +kernel

/-- Thread 0 of shuttle 0 has a load of HBM in slot 2. -/
def light : State :=
  { withSide { light := [(2, { active := true, offset := 0x40, size := 3, write := false, thread := 0, tag := 5 })] } with
    shuttles := [(0, { tags := [(5, { valid := true, thread := 0, size := 3, address := 0x40, kind := some (.load 7 false true)
                                      light := true, sent := true })] })]
    hbm := [(0, { bytes := [(0x40, 0x11), (0x47, 0x88)] })] }

theorem witness_LightPathAnswersTags : inOrder (getShuttle light 0) 5 = true ∧ classify light.fuses.variant 0x40 = .hbm 0 0x40
    ∧ mayReach light (.hbm 0 0x40) sh0 = true ∧ CleanSector light 0 0x40
    ∧ (sGet {} 5 (getShuttle light 0).tags : Tag).valid = true ∧ (sGet {} 5 (getShuttle light 0).tags : Tag).reply = none
    ∧ (sGet {} 5 (getShuttle light 0).tags : Tag).kind = some (.load 7 false true)
    ∧ (sGet {} 2 (getSide light 0).light : LightSlot) = { active := true, offset := 0x40, size := 3, write := false, thread := 0, tag := 5 } := by
  unfold CleanSector; decide +kernel

theorem test_light : (sGet {} 5 (getShuttle (after (.lightPathComplete 0 0 2 .clean) light) 0).tags : Tag).data = [0x11, 0, 0, 0, 0, 0, 0, 0x88] := by
  decide +kernel

/-! ## Shuttles -/

/-- Shuttle 0, whose thread 0 runs. -/
def running (th : Thread) (h : Shuttle) : Shuttle := { h with threads := [(0, { th with state := 1 })], running := some 0 }
def onShuttle (h : Shuttle) : State := { base with shuttles := [(0, h)] }
/-- Global address of an offset of this package. -/
def here (o : Nat) : W64 := BitVec.ofNat 64 (0xFFFF000000000000 + o)
def tagged (k : ReqKind) (g : Tag) : Tag := { g with valid := true, kind := some k }
def allTags : Sparse Tag := (List.range 48).map fun i => (i, { valid := true })
def op1 : ShOp := ⟨0, 0, 5, 1, 2⟩

/-- x1 names local offset 0x10 or HBM offset 0x40; x2 is −2. -/
def mems (a : W64) (h : Shuttle) : State := onShuttle (running { x := [(1, a), (2, 0xFFFFFFFFFFFFFFFE)], f := [(2, 3)] } h)
def local16 : State := mems (here 0x200000000010) { mem := [(0x10, 0x80), (0x13, 0xFF)] }
def hbm40 : State := mems (here 0x40) {}
def memOp (reg : BitVec 5) (size : BitVec 2) (fp : Bool) : ShMem := ⟨0, 0, reg, fp, 1, 0, size, true⟩

theorem witness_ShuttleLoadsAndStores : Issuing local16 0 0 ∧ placeOf local16 0 (xReg (thread local16 0 0) 1 + (0 : BitVec 12).signExtend 64) 8 = .own 0x10
    ∧ Issuing hbm40 0 0 ∧ placeOf hbm40 0 (xReg (thread hbm40 0 0) 1 + (0 : BitVec 12).signExtend 64) 8 = .package 0x40
    ∧ freeTag (getShuttle hbm40 0) = some 0 ∧ Issuing (mems (here 0x40) { tags := allTags }) 0 0
    ∧ placeOf (mems (here 0x40) { tags := allTags }) 0 (xReg (thread (mems (here 0x40) { tags := allTags }) 0 0) 1 + (0 : BitVec 12).signExtend 64) 8 = .package 0x40
    ∧ freeTag (getShuttle (mems (here 0x40) { tags := allTags }) 0) = none := by unfold Issuing; decide +kernel

theorem test_load_signed : xReg (thread (after (.shuttleLoad (memOp 7 0 false)) local16) 0 0) 7 = 0xFFFFFFFFFFFFFF80 := by decide +kernel
theorem test_store : (getShuttle (after (.shuttleStore (memOp 2 1 false)) local16) 0).mem = [(0x10, 0xFE), (0x11, 0xFF), (0x13, 0xFF)] := by
  decide +kernel

/-- x2 = −2 against the doubleword 3 at local offset 0x10; a reservation of that block. -/
def atomics (r : Option Nat) : State :=
  onShuttle (running { x := [(1, here 0x200000000010), (2, 0xFFFFFFFFFFFFFFFE)], reserved := r } { mem := [(0x10, 3)] })
def atomicHbm : State := onShuttle (running { x := [(1, here 0x40)] } {})

theorem witness_ShuttleAtomics : Issuing (atomics none) 0 0 ∧ placeOf (atomics none) 0 (here 0x200000000010) 8 = .own 0x10 ∧ 0x10 % 8 = 0
    ∧ (thread (atomics none) 0 0).reserved ≠ some (0x10 / 8) ∧ (thread (atomics (some 2)) 0 0).reserved = some (0x10 / 8)
    ∧ Issuing (atomics (some 2)) 0 0 ∧ Issuing atomicHbm 0 0 ∧ (thread atomicHbm 0 0).machine = false
    ∧ placeOf atomicHbm 0 (here 0x40) 8 = .package 0x40 := by unfold Issuing; decide +kernel

theorem test_amomin : (getShuttle (after (.shuttleAtomic 0 0 .min 7 1 2 true) (atomics none)) 0).mem = (List.range 8).map fun i => (0x10 + i, if i = 0 then 0xFE else 0xFF) := by
  decide +kernel
theorem test_amominu : (getShuttle (after (.shuttleAtomic 0 0 .minu 7 1 2 true) (atomics none)) 0).mem = [(0x10, 3)] := by decide +kernel
theorem test_sc_fails : xReg (thread (after (.shuttleAtomic 0 0 .sc 7 1 2 true) (atomics none)) 0 0) 7 = 1 := by decide +kernel

/-- Thread 0 runs and thread 1 is ready; the line of pc 0x100 is resident or not. -/
def two (lines : List Nat) (tags : Sparse Tag) (m : Bool) : State :=
  onShuttle { threads := [(0, { state := 1, pc := 0x100, machine := m }), (1, { state := 0 })], running := some 0, icache := lines, tags := tags }
def alone : State := onShuttle (running { pc := 0x100 } { icache := [lineOf 0x100] })

theorem witness_ThreadsWaitYieldAndTrap : Issuing (two [] [] false) 0 0 ∧ (getShuttle (two [] [] false) 0).icache.contains (lineOf 0x100) = false
    ∧ freeTag (getShuttle (two [] [] false) 0) = some 0 ∧ Issuing alone 0 0 ∧ (getShuttle alone 0).icache.contains (lineOf 0x100) = true
    ∧ tagsOf (getShuttle alone 0) 0 = [] ∧ tagsOf (getShuttle (two [] [(3, { valid := true })] false) 0) 0 ≠ []
    ∧ Issuing (two [] [(3, { valid := true })] false) 0 0 ∧ nextThread 0 (getShuttle (two [] [] false) 0) = some 1
    ∧ nextThread 0 (getShuttle alone 0) = none ∧ (thread alone 0 0).machine = false ∧ Issuing (two [] [] true) 0 0
    ∧ (thread (two [] [] true) 0 0).machine = true := by unfold Issuing; decide +kernel

theorem test_yield : (getShuttle (after (.shYield op1) (two [] [] false)) 0).running = some 1 := by decide +kernel

/-- x1 names HBM, or a tag, or local memory; x2 a size and a local offset, or a side. -/
def op12 (a b : W64) (h : Shuttle) : State := onShuttle (running { x := [(1, a), (2, b)] } h)
def getting : State := op12 (here 0x40) 0x0C0010 {}
def waitingFor (v : Bool) : State := op12 47 0 { tags := [(47, { valid := v, last := 2, thread := 0 })] }
def submitting : State := op12 0x40 7 { mem := [(0x40, 1)] }

theorem witness_TagsAndDescriptors : Issuing getting 0 0 ∧ freeTag (getShuttle getting 0) = some 0 ∧ bits 20 18 0x0C0010 ≠ 7
    ∧ bits 17 0 0x0C0010 + 2 ^ bits 20 18 0x0C0010 ≤ 0x40000 ∧ Issuing (waitingFor false) 0 0 ∧ (getTag (waitingFor false) 0 47).valid = false
    ∧ Issuing (waitingFor true) 0 0 ∧ (getTag (waitingFor true) 0 47).valid = true ∧ Issuing submitting 0 0
    ∧ freeTag (getShuttle submitting 0) = some 0 ∧ (xReg (thread submitting 0 0) 2).toNat < 8 ∧ bits 17 0 0x40 + 32 ≤ 0x40000 := by
  unfold Issuing; decide +kernel

/-- Tag 5 has its answer. -/
def answered (k : ReqKind) : State :=
  onShuttle { threads := [(0, { state := 2, waiting := .tag 5 none })]
              tags := [(5, { valid := true, size := 0, address := here 0x40, kind := some k, reply := some 0, data := [0x80] })] }
def answeredPut : State :=
  onShuttle { threads := [(0, { state := 2 })], tags := [(5, { valid := true, address := here 0x40, kind := some (.put [1] false), reply := some 0 })] }

theorem witness_TagsAndDescriptors_replies (k : ReqKind) (h : k = .load 7 false true ∨ k = .store [1] false) :
    (getTag (answered k) 0 5).valid = true ∧ eldest (getShuttle (answered k) 0) 5 = true
    ∧ isRemote (placeOf (answered k) 0 (getTag (answered k) 0 5).address 1) = false ∧ (getTag (answered k) 0 5).reply = some 0
    ∧ (getTag (answered k) 0 5).kind = some k := by rcases h with h | h <;> rw [h] <;> decide +kernel
theorem witness_TagsAndDescriptors_put : (getTag answeredPut 0 5).valid = true ∧ eldest (getShuttle answeredPut 0) 5 = true
    ∧ isRemote (placeOf answeredPut 0 (getTag answeredPut 0 5).address 1) = false ∧ (getTag answeredPut 0 5).reply = some 0
    ∧ (getTag answeredPut 0 5).kind = some (.put [1] false) ∧ (∀ k : ThreadNo, (thread answeredPut 0 k.val).waiting = .none) := by decide +kernel

theorem test_ptag_pending : xReg (thread (after (.shPtag op1) (waitingFor true)) 0 0) 5 = 6 := by decide +kernel
theorem test_wtag_status : xReg (thread (after (.shWtag op1) (waitingFor false)) 0 0) 5 = 2 := by decide +kernel
theorem test_load_completes : xReg (thread (after (.requestCompletion 0 5 .clean) (answered (.load 7 false true))) 0 0) 7 = 0xFFFFFFFFFFFFFF80 := by
  decide +kernel

/-- Knot 3 of the own shuttle, with n in x2; knot 3 of shuttle 1; a knot of a tile. -/
def ownKnot (k : Knot) (n : W64) (m : Bool) : State :=
  onShuttle (running { x := [(1, here (ctlWindow 0 + 0x30)), (2, n)], machine := m } { knots := [(3, k)] })
def farKnot (o : Nat) : State := op12 (here o) 4 {}
def locked (u : BitVec 12) : Knot := { state := 1, owner := u }

/-- What all clauses about an own knot ask. -/
def OwnKnotReady (s : State) : Prop :=
  Issuing s 0 0 ∧ replaying s (ownerOfShuttle s 0) = false ∧ placeOf s 0 (xReg (thread s 0 0) 1) 1 = .package (ctlWindow 0 + 0x30)
  ∧ homeOf (classify s.fuses.variant (ctlWindow 0 + 0x30)) = .shuttleKnot 0 3
  ∧ reaches s (ownerOfShuttle s 0) (classify s.fuses.variant (ctlWindow 0 + 0x30)) = true ∧ ∀ k : ThreadNo, ownWait (thread s 0 k.val) = none

theorem witness_ShuttleKnotInstructions : OwnKnotReady (ownKnot { count := 65535, gen := 5 } 65535 true)
    ∧ OwnKnotReady (ownKnot {} 32769 false) ∧ OwnKnotReady (ownKnot (locked 0) 0 false) ∧ OwnKnotReady (ownKnot (locked 16) 0 false)
    ∧ OwnKnotReady (ownKnot { state := 2 } 0 false) ∧ (thread (ownKnot { count := 65535, gen := 5 } 65535 true) 0 0).machine = true
    ∧ LockedByThread 0 0 (locked 0) ∧ ¬ LockedByThread 0 0 (locked 16) ∧ (5 + 65536 - 65535) % 65536 < 32768 ∧ 32768 ≤ (0 + 65536 - 1) % 65536 := by
  unfold OwnKnotReady Issuing LockedByThread; decide +kernel

/-- What all clauses about another knot ask, at a place `o`. -/
def FarKnotReady (o : Nat) : Prop :=
  Issuing (farKnot o) 0 0 ∧ freeTag (getShuttle (farKnot o) 0) = some 0 ∧ placeOf (farKnot o) 0 (xReg (thread (farKnot o) 0 0) 1) 1 = .package o
  ∧ reaches (farKnot o) (ownerOfShuttle (farKnot o) 0) (classify (farKnot o).fuses.variant o) = true
  ∧ isUnmapped (classify (farKnot o).fuses.variant o) = false

theorem witness_ShuttleKnotInstructions_far : FarKnotReady (ctlWindow 1 + 0xFF0) ∧ homeOf (classify (farKnot 0).fuses.variant (ctlWindow 1 + 0xFF0)) = .shuttleKnot 1 255
    ∧ FarKnotReady (0x100000000000 + 0x2A38) ∧ homeOf (classify (farKnot 0).fuses.variant (0x100000000000 + 0x2A38)) = .tileKnot 0 0 7
    ∧ (thread (farKnot 0) 0 0).machine = false := by unfold FarKnotReady Issuing; decide +kernel

theorem test_ksig_saturates : (sGet {} 3 (getShuttle (after (.shKsig op1) (ownKnot { count := 65535 } 1 false)) 0).knots : Knot).count = 65535 := by decide +kernel
theorem test_ktake_short : xReg (thread (after (.shKtake op1) (ownKnot { count := 2 } 3 false)) 0 0) 5 = 0x0F := by decide +kernel

/-! ## Channels and queues -/

/-- Channel 0 is open, channel 1 is not; queue 15 is open on channel 0. -/
def ring : Channel := { base := 0x1000, size := 4096, maxMsg := 1024, opened := true, produced := 2, consumed := 1, wrPos := 0x20 }
def queue15 : Queue := { channel := 0, opened := true, widthM1 := 1, contributors := 2, slots := 1, base := 0x3000 }
def chans (v w : W64) : State := op12 v w { channels := [(0, ring)], queues := [(15, queue15)] }

theorem witness_ChannelAndQueueInstructions :
    Issuing (chans 0x400004000 0x400) 0 0 ∧ (openChannel (getShuttle (chans 0x400004000 0x400) 0) 0x400004000 0x400).toBool = true
    ∧ Issuing (chans 0 0) 0 0 ∧ (openChannel (getShuttle (chans 0 0) 0) 0 0).toBool = false
    ∧ Issuing (chans 64 0) 0 0 ∧ (getChannel (getShuttle (chans 1 0) 0) 1).opened = false ∧ Issuing (chans 1 0) 0 0
    ∧ (getChannel (getShuttle (chans 0 0x100000010) 0) 0).opened = true ∧ Issuing (chans 0 0x100000010) 0 0
    ∧ (bits 17 0 0x100000010 + 4096 - ring.rdPos.toNat) % 4096 ≤ usedBytes ring ∧ bits 63 32 0x100000010 ≤ (ring.produced - ring.consumed).toNat
    ∧ usedBytes ring < (bits 17 0 0x30 + 4096 - ring.rdPos.toNat) % 4096 := by unfold Issuing; decide +kernel

/-- x1 names channel 0 or queue 15 of shuttle 0. -/
theorem witness_ChannelAndQueueInstructions_sends (o : Nat) (h : o = ctlWindow 0 + 0x1400 ∨ o = ctlWindow 0 + 0x1CF0) :
    let s := chans (here o) 0x4000000010
    Issuing s 0 0 ∧ placeOf s 0 (xReg (thread s 0 0) 1) 1 = .package o ∧ isUnmapped (classify s.fuses.variant o) = false
    ∧ reaches s (ownerOfShuttle s 0) (classify s.fuses.variant o) = true ∧ senderEntry (xReg (thread s 0 0) 1) (getShuttle s 0).senders = some 0
    ∧ freeTag (getShuttle s 0) = some 0 ∧ bits 17 0 0x4000000010 + bits 34 18 0x4000000010 ≤ 0x40000 ∧ bits 17 0 0x4000000010 + 16 ≤ 0x40000
    ∧ homeAt s (ctlWindow 0 + 0x1CF0) = .queue 0 15 := by
  rcases h with h | h <;> rw [h] <;> simp only <;> unfold Issuing <;> decide +kernel

theorem witness_ChannelAndQueueInstructions_queues :
    Issuing (chans 64 0x5000010001) 0 0 ∧ (openQueue { channels := [(0, ring)] } 64 0x5000010001).toBool = true
    ∧ Issuing (op12 64 0x5000010001 { channels := [(0, ring)] }) 0 0 ∧ (openQueue (getShuttle (chans 64 0) 0) 64 0).toBool = false
    ∧ Issuing (chans 16 0) 0 0 ∧ (getQueue (getShuttle (chans 14 0) 0) 14).opened = false ∧ Issuing (chans 14 0) 0 0
    ∧ (getQueue (getShuttle (chans 15 0) 0) 15).opened = true ∧ Issuing (chans 15 0) 0 0 := by unfold Issuing; decide +kernel

theorem test_chpoll : xReg (thread (after (.shChpoll op1) (chans 0 0)) 0 0) 5 = 0x2000000002 := by decide +kernel
theorem test_chack : (getChannel (getShuttle (after (.shChack op1) (chans 0 0x100000010)) 0) 0).consumed = 2 := by decide +kernel

/-! ## Messages in the package -/

def tileSrc : MsgFrom := .tile 1 0 2
def threadSrc : MsgFrom := .thread 1 5
def knotAt : W64 := here (0x100000000000 + 0x2A00)
/-- A take of 2 from a tile, or a wait for 2 from thread 0 of shuttle 1, at knot 0 of tile (0, 0), which counts `c`. -/
def message (m : NetMsg) (c : W16) : State :=
  { base with net := [m], tiles := [(0, [(0, { knots := [(0, { count := c })] })])]
              shuttles := [(1, { tags := [(5, { valid := true, resend := some 0, address := knotAt, kind := some (.knot 7 2 2 true) })] })] }
def tileTake : NetMsg := .knotOp tileSrc ⟨true, 0, 1, 0⟩ knotAt 3 2 false
def threadWait : NetMsg := .knotOp threadSrc ⟨false, 16, 0, 0⟩ knotAt 2 2 true
def metReply : NetMsg := .knotReply tileSrc 2 0 true 3 0 knotAt
def waits : Tile := { hold := { waits := [⟨2, true, 0, 2, knotAt, some 0⟩] } }

theorem witness_KnotMessages : netMessage (message tileTake 2) 0 = some tileTake ∧ homeAt (message tileTake 2) (bits 47 0 knotAt.toNat) = .tileKnot 0 0 0
    ∧ replaying (message tileTake 2) (ownerOf (message tileTake 2) (quadOf 0 0)) = false
    ∧ netMessage (message threadWait 2) 0 = some threadWait ∧ (getTag (message threadWait 2) 1 5).valid = true
    ∧ (getTag (message threadWait 2) 1 5).reply = none ∧ (knotApply 2 2 ⟨false, 16, 0, 0⟩ { count := 2 }).2.met = true
    ∧ (knotApply 2 2 ⟨false, 16, 0, 0⟩ { count := 1 }).2.met = false ∧ netMessage (message metReply 0) 0 = some metReply
    ∧ dueWait (hold (withTile waits) (ownerOfAt (withTile waits) a0)).wBeat (tile (withTile waits) a0).hold.waits
      = some (⟨2, true, 0, 2, knotAt, some 0⟩, [⟨2, true, 0, 2, knotAt, none⟩]) ∧ waits.outQ.length ≤ 14
    ∧ (getTag (message threadWait 2) 1 5).resend = some 0 ∧ placeOf (message threadWait 2) 1 knotAt 1 = .package (0x100000000000 + 0x2A00) := by
  decide +kernel

theorem test_take_applied : (getKnot (getTile (after (.knotOperationApplied 0) (message tileTake 2)) 0) 0).gen = 1 := by decide +kernel

/-- A forwarder of side 0 with a knot operation, a message, or one that was refused. -/
def knotWord1 : OutWord := { data := knotAt, poison := false, first := true, last := false, knot := true }
def knotWord2 : OutWord := { data := 0x0203, poison := false, first := false, last := true, knot := true }
def msgWord1 : OutWord := { data := here (ctlWindow 0 + 0x1400), poison := false, first := true, last := false, knot := false }
def msgWord2 : OutWord := { data := 7, poison := false, first := false, last := true, knot := false }
def forwarding (ws : List OutWord) (r : Option Nat) : State := withSide { fwd := [{ x := 0, y := 0, words := ws, complete := true, retryAt := r }] }

theorem witness_MessagesReachTheirHome_forwarder (ws : List OutWord) (h : ws = [knotWord1, knotWord2] ∨ ws = [msgWord1, msgWord2]) :
    let s := forwarding ws none
    let m : FwdMsg := { x := 0, y := 0, words := ws, complete := true }
    let o := bits 47 0 (msgHandle m).toNat
    forwards s 0 = true ∧ (getSide s 0).fwd = [m] ∧ bits 63 48 (msgHandle m).toNat = 0xFFFF ∧ isUnmapped (classify s.fuses.variant o) = false
    ∧ reaches s (ownerOf s (quadOfSide 0)) (classify s.fuses.variant o) = true ∧ senderEntry (msgHandle m) (getSide s 0).senders = some 0 := by
  rcases h with h | h <;> rw [h] <;> decide +kernel
theorem witness_MessagesReachTheirHome_trigger :
    homeOf (classify base.fuses.variant (ctlWindow 0 + 0x1400)) = .channel 0 0 ∧ (getSide (forwarding [msgWord1, msgWord2] (some 0)) 0).fwd.length = 1
    ∧ 0 ≤ base.nowNs := by decide +kernel

/-- A message of one word for channel 0 of shuttle 0, and a contribution to queue 15, from thread 0 of shuttle 1. -/
def payload : List (Pz 64) := [⟨0x0000000700000005, false⟩, ⟨1, false⟩]
def arriving (o kind : Nat) (c : Channel) : State :=
  { base with net := [.data threadSrc (here o) payload 16 kind]
              shuttles := [(0, { channels := [(0, c)], queues := [(15, queue15)] }), (1, { tags := [(5, { valid := true })] })] }

theorem witness_MessagesReachTheirHome_arrivals :
    homeAt (arriving 0 0 ring) (ctlWindow 0 + 0x1400) = .channel 0 0 ∧ homeAt (arriving 0 1 ring) (ctlWindow 0 + 0x1CF0) = .queue 0 15
    ∧ replaying (arriving 0 0 ring) (ownerOfShuttle (arriving 0 0 ring) 0) = false
    ∧ (getTag (arriving 0 0 ring) 1 5).valid = true ∧ (getTag (arriving 0 0 ring) 1 5).reply = none
    ∧ (channelAccept 0 0 payload 16 (getShuttle (arriving 0 0 ring) 0)).2 = 0
    ∧ (channelAccept 0 0 payload 16 (getShuttle (arriving 0 0 {}) 0)).2 = 9
    ∧ (queueAccept 15 payload 16 (getShuttle (arriving 0 1 ring) 0)).2 = 0
    ∧ finishedSlot (queueAccept 15 payload 16 (getShuttle (arriving 0 1 ring) 0)).1 15 0 = false := by decide +kernel

/-- The one slot of queue 15 has both its contributions. -/
def finished : Shuttle :=
  (queueAccept 15 payload 16 (queueAccept 15 payload 16 { channels := [(0, ring)], queues := [(15, queue15)] }).1).1

theorem witness_MessagesReachTheirHome_finished : (getQueue finished 15).opened = true ∧ (getQueue finished 15).slots = 1
    ∧ finishedSlot finished 15 0 = true ∧ replaying (onShuttle finished) (ownerOfShuttle (onShuttle finished) 0) = false
    ∧ (∀ k : ThreadNo, ownWait (thread (onShuttle finished) 0 k.val) = none) := by decide +kernel

theorem test_channel_takes : (getChannel (getShuttle (after (.channelMessageArrival 0) (arriving (ctlWindow 0 + 0x1400) 0 ring)) 0) 0).produced = 3 := by
  decide +kernel
theorem test_channel_refuses : (getChannel (getShuttle (after (.channelMessageArrival 0) (arriving (ctlWindow 0 + 0x1400) 0 {})) 0) 0).refusals = 1 := by
  decide +kernel

/-! ## Patterns and steps -/

/-- An image of one quadrant with five sections: an empty `tile_init`, one grid phase of 10 beats, and the end knot 5 of shuttle 0 at 2. -/
def imageBytes : Bytes :=
  leBytes 8 (0x4E414341 + 1 * 2 ^ 32 + 5 * 2 ^ 48) ++ leBytes 8 296 ++ leBytes 8 (1 + 2 ^ 15) ++ leBytes 8 0
    ++ ([(1, 192, 16), (2, 208, 8), (0x0A, 216, 56), (0x0B, 272, 24), (3, 296, 0)].flatMap fun (e : Nat × Nat × Nat) =>
        leBytes 8 e.1 ++ leBytes 8 e.2.1 ++ leBytes 8 e.2.2 ++ leBytes 8 0)
    ++ leBytes 16 0 ++ leBytes 8 0
    ++ leBytes 8 0 ++ leBytes 8 10 ++ leBytes 8 1 ++ leBytes 8 0 ++ leBytes 8 10 ++ leBytes 16 0
    ++ leBytes 8 (1 + 5 * 2 ^ 16 + 2 * 2 ^ 32) ++ leBytes 16 0

def image1 : Image :=
  { quadrants := 1, entryAddr := 0, localOnly := true, hlat := 0, laceQuads := 0, minPorts := 0, needsIngest := false, hbmBytes := 0
    places := [(0, 0)], tile := [], side := [], shuttle := [], threads := [], hbm := [], laceRefs := [], reloc := [], budget := 0
    sStep := 10, phases := [⟨[0, 10, 0, 0], []⟩], boundary := [⟨[1 + 5 * 2 ^ 16 + 2 * 2 ^ 32, 0, 0], []⟩], peers := 0, copyBytes := 0
    hbmInit := [] }

def op : Role := .operator 1

theorem image1_parses : imageOf imageBytes = some image1 := by decide +kernel
theorem image1_parsed : parseImage imageBytes = .ok image1 := by
  have h := image1_parses
  unfold imageOf at h
  split at h
  · simp_all
  · simp at h

/-- Whether a request of a role passes. -/
def passes (s : State) (r : Role) (ix sub : Nat) (data : Bytes) : Bool :=
  accessCheck s r ix sub true == 0 && !auditBlocked s && (match indexOf ix with
    | some b => (match entryOf b.1 sub with
      | some e => typeCheck e data == 0
      | none => false)
    | none => false)

theorem passes_of {s : State} {r : Role} {ix sub : Nat} {data : Bytes} (h : passes s r ix sub data = true) : Passes s r ix sub data := by
  unfold passes at h
  simp only [Bool.and_eq_true, beq_iff_eq, Bool.not_eq_true'] at h
  obtain ⟨⟨h1, h2⟩, h3⟩ := h
  refine ⟨h1, h2, ?_⟩
  split at h3
  · rename_i b hb
    split at h3
    · exact ⟨b, _, hb, ‹_›, by simpa using h3⟩
    · cases h3
  · cases h3

/-- Partition 1 with the image, its installed copy, and a step state. -/
def stepping (q : StepSt) (installed : Bytes) : State :=
  { base with parts := [(1, { part1 with step := q, pattern := { image := imageBytes, installed := installed }, hold := { stepRuns := true } })] }

theorem hoopsAgree_of_noTiles {s : State} (h : s.tiles = []) (p : Nat) : hoopsAgree s p = true := by
  simp [hoopsAgree, getTile, h, sGet]

theorem image1_loads : loadChecks 1 imageBytes (stepping {} []) = .ok (image1, ⟨1, 0, 0⟩, stepping {} [], true) := by
  have h1 : translation (stepping {} []) 1 image1 = some (0, 0) := by decide +kernel
  have h2 : unitMissing (stepping {} []) 1 image1 ⟨1, 0, 0⟩ true = 0 := by decide +kernel
  have h3 : placementLegal (stepping {} []) 1 image1 0 0 = true := by decide +kernel
  have h4 : resourceOver (stepping {} []) image1 = none := by decide +kernel
  have h5 : hoopsAgree (stepping {} []) 1 = true := hoopsAgree_of_noTiles rfl 1
  have h6 : deadlineRefusal (stepping {} []) 1 image1 = none := by decide +kernel
  have h7 : (getPart (stepping {} []) 1).pattern.expected = [] := by decide +kernel
  have h8 : badIndex (laceRefHolds (stepping {} []) image1 ⟨1, 0, 0⟩) image1.laceRefs = none := rfl
  have h9 : writeImage image1 ⟨1, 0, 0⟩ true true (updPattern (stepping {} []) 1 fun q => { q with peersUsed := q.peers }) = .ok (stepping {} [], true) := rfl
  have h10 : (!allZero ([] : Bytes)) = false := rfl
  unfold loadChecks
  rw [image1_parsed]
  simp only [h1, Option.map_some, Option.getD_some, h2, h3, h4, h5, h6, h7, h8, h9, h10, Option.isSome_some, Bool.false_and, Bool.and_false,
    Option.isNone_some, Option.isSome_none, Bool.false_eq_true, if_false, Bool.not_true, Bool.or_false, ne_eq, not_true_eq_false]

theorem witness_PatternLoad : Passes (stepping {} []) op 0x8011 2 [1] ∧ stepState (stepping {} []) 1 = 0 ∧ quadMissing (stepping {} []) 1 = false
    ∧ loadChecks 1 (getPart (stepping {} []) 1).pattern.image (stepping {} []) = .ok (image1, ⟨1, 0, 0⟩, stepping {} [], true) := by
  refine ⟨passes_of (by decide +kernel), by decide +kernel, by decide +kernel, ?_⟩
  have h : (getPart (stepping {} []) 1).pattern.image = imageBytes := by decide +kernel
  rw [h]; exact image1_loads
theorem witness_PatternUnload : Passes (stepping { state := 6 } imageBytes) op 0x8011 2 [2] ∧ stepState (stepping { state := 6 } imageBytes) 1 = 6
    ∧ nextGated (stepping {} []) 1 = some 0 ∧ nextOpen (clocked (stepping {} [])) 1 = some 0 ∧ stepState (clocked (stepping {} [])) 1 = 0 :=
  ⟨passes_of (by decide +kernel), by decide +kernel⟩

/-- An empty segment, and a segment with a function. -/
def withLace (v : LaceSeg) : State := { base with laces := [(0, v)] }

/-- The header of an image without frames or functions, at ratio 2. -/
def laceBytes : Bytes := leBytes 8 (0x4543414C + 2 ^ 32) ++ leBytes 8 (0x6C08 + 512 * 2 ^ 16 + 128 * 2 ^ 32 + 2 ^ 48) ++ leBytes 8 (2 + 2000000 * 2 ^ 32) ++ leBytes 8 32

theorem witness_LaceLoad : Passes (withLace { staged := laceBytes }) .installer 0x6010 2 [1]
    ∧ ∃ v : LaceSeg, loadSegment (withLace { staged := laceBytes }) 0 laceBytes { staged := laceBytes, command := 1 } = (0, 0, v) := by
  refine ⟨passes_of (by decide +kernel), ?_⟩
  have h1 : laceFree (withLace { staged := laceBytes }) 0 = true := by decide +kernel
  have h2 : laceHeadLegal laceBytes = true := by decide +kernel
  have h3 : laceNative laceBytes = true := by decide +kernel
  have h4 : laceShapeLegal laceBytes = true := by decide +kernel
  have h5 : withinFmax (laceCeiling (withLace { staged := laceBytes }) 0) (laceRatioOf laceBytes) (laceFmax laceBytes) = true := by decide +kernel
  have h6 (d : Bytes) : laceKept (withLace { staged := laceBytes }) 0 d = true := rfl
  have h7 : laceSigned laceBytes = false := by decide +kernel
  have h8 : ¬ laceBytes.length < laceLength laceBytes := by decide +kernel
  have h9 : laceFrames laceBytes = 0 := by decide +kernel
  have h10 : (withLace { staged := laceBytes }).sec.caerec.approved = false := rfl
  have h11 : noCycle (emptySegment { staged := laceBytes, command := 1 }).cells = true := by decide +kernel
  unfold loadSegment
  simp only [h1, h2, h3, h4, h5, h6, h7, h8, h9, h10, loadFrames, Bool.not_true, Bool.or_self, Bool.false_eq_true, if_false]
  rw [if_neg (by rw [Bool.not_eq_true', Bool.not_eq_false]; exact h11)]
  exact ⟨_, rfl⟩

theorem witness_LaceEmpty : Passes (withLace {}) .installer 0x6010 2 [2] ∧ laceFree (withLace {}) 0 = true
    ∧ hasLacework base.fuses.variant = true ∧ 0 < quadsOf base.fuses.variant ∧ mayReach (withLace { state := 2 }) (.lace 0 0x300008) (.stepService 1) = true
    ∧ mayCapture (withLace { state := 2 }) (.stepService 1) = true ∧ tickDue (withLace {}) 0 = false ∧ tickDue (withLace { state := 2, ratio := 2 }) 0 = true :=
  ⟨passes_of (by decide +kernel), by decide +kernel⟩

/-! ## Steps -/

def stopped : State := stepping { state := 4 } imageBytes
def inStep2 (q : StepSt) : State := stepping { q with state := 2 } imageBytes

theorem witness_installed (q : StepSt) : installedImage (stepping q imageBytes) 1 = some image1 := by
  have h : getPart (stepping q imageBytes) 1 = { part1 with step := q, pattern := { image := imageBytes, installed := imageBytes }, hold := { stepRuns := true } } := rfl
  rw [installedImage, h]; exact image1_parses
theorem witness_StepCommands : op ≠ .installer ∧ Passes stopped op 0x8411 1 [1] ∧ (stepOf stopped 1).state = 4 ∧ (stepOf stopped 1).stopReason ≠ 4
    ∧ quadMissing stopped 1 = false ∧ Passes (inStep2 {}) op 0x8411 1 [2] ∧ Passes (inStep2 {}) op 0x8411 1 [3]
    ∧ Passes (inStep2 {}) op 0x8411 1 [4] ∧ Passes (inStep2 {}) op 0x8411 1 [5] ∧ (stepOf (inStep2 {}) 1).state = 2 ∧ saveRoom (inStep2 {}) image1 = true :=
  ⟨by decide, passes_of (by decide +kernel), by decide +kernel, by decide +kernel, by decide +kernel, passes_of (by decide +kernel),
    passes_of (by decide +kernel), passes_of (by decide +kernel), passes_of (by decide +kernel), by decide +kernel⟩

/-- A saved partition, and one that has failed with a complete checkpoint. -/
def saved : State := stepping { state := 7, save := { valid := true } } imageBytes
def failed : State := stepping { state := 6, checkpoints := [{ complete := true, rec_ := { counter := 5 } }] } imageBytes

theorem witness_StepCommands_resume : Passes saved op 0x8411 1 [6] ∧ (stepOf saved 1).state = 7
    ∧ translation (updStep saved 1 fun q => { q with command := 6 }) 1 image1 = some (0, 0)
    ∧ placementLegal (updStep saved 1 fun q => { q with command := 6 }) 1 image1 0 0 = true ∧ image1.localOnly = true ∧ image1.laceRefs = []
    ∧ Passes failed op 0x8411 1 [7] ∧ (stepOf failed 1).state = 6
    ∧ (stepOf failed 1).checkpoints.find? (·.complete) = some { complete := true, rec_ := { counter := 5 } } :=
  ⟨passes_of (by decide +kernel), by decide +kernel, by decide +kernel, by decide +kernel, rfl, rfl, passes_of (by decide +kernel),
    by decide +kernel, by decide +kernel⟩

/-- A store with one value at every number below `n`. -/
theorem sGet_rangeFrom {α : Type} (d v : α) (n : Nat) : ∀ o k, o ≤ k → k < o + n →
    sGet d k ((List.range' o n).map fun i => (i, v)) = v := by
  induction n with
  | zero => intro o k h1 h2; omega
  | succ n ih =>
    intro o k h1 h2
    simp only [List.range'_succ, List.map_cons, sGet]
    by_cases h : o = k
    · simp [h]
    · have : ¬ k < o := by omega
      simp only [h, if_false, this]
      exact ih (o + 1) k (by omega) (by omega)

/-- The end of a step: every tile is parked and the end knot counts 2. -/
def ended (q : StepSt) : State :=
  { stepping { q with state := 2 } imageBytes with
    tiles := (List.range' 0 128).map fun y => (y, (List.range' 0 256).map fun x => (x, { hoop := { parked := true } }))
    shuttles := [(0, { knots := [(5, { count := 2 })] })] }

theorem ended_parked (q : StepSt) (x y : Nat) (hx : x < 256) (hy : y < 128) : getTile (ended q) (tileKey x y) = { hoop := { parked := true } } := by
  have h1 : tileKey x y % 1024 = x := by unfold tileKey; omega
  have h2 : tileKey x y / 1024 = y := by unfold tileKey; omega
  simp only [getTile, ended, h1, h2]
  rw [sGet_rangeFrom _ _ 128 0 y (by omega) (by omega), sGet_rangeFrom _ _ 256 0 x (by omega) (by omega)]

theorem witness_stepEnded (q : StepSt) : stepEnded (ended q) 1 image1 = true := by
  have hq : quadsOfPart (ended q) 1 = [0] := by
    have h : quadsOfPart (ended q) 1 = quadsOfPart base 1 := rfl
    rw [h]; decide +kernel
  have hs : (getShuttle (ended q) 0) = { knots := [(5, { count := 2 })] } := rfl
  have hp : placedOf (ended q) 1 = ⟨1, 0, 0⟩ := rfl
  have he : endKnot image1 (placedOf (ended q) 1) = (0, 5, 2) := by rw [hp]; decide +kernel
  have hn : ∀ k, getSide (ended q) k = {} := fun _ => rfl
  unfold stepEnded
  simp only [he, hs, hn, Bool.and_eq_true]
  refine ⟨⟨by decide +kernel, ?_⟩, by simp⟩
  simp only [tilesOfPart, hq, List.flatMap_cons, List.flatMap_nil, List.append_nil, tilesOfQuad, List.all_flatMap, List.all_map, List.all_eq_true,
    List.mem_range, Function.comp]
  intro y hy x hx
  rw [show 0 / 4 % 2 * 512 + 0 % 2 * 256 + x = x from by simp, show 0 / 4 / 2 * 256 + 0 % 4 / 2 * 128 + y = y from by simp]
  rw [ended_parked q x y hx hy]
  decide

theorem witness_StepsEndAbortAndMeetPeers (q : StepSt) : inStep (ended q) 1 = true ∧ (hold (ended q) 1).haltAt = none
    ∧ replaying (ended q) 1 = false ∧ sealRoom (ended q) 1 = true ∧ (getPart (ended q) 1).recd.arming = false ∧ (getPart (ended q) 1).recd.state = 0
    ∧ carriedPoisoned (ended q) 1 image1 = false ∧ installedImage (ended q) 1 = some image1 ∧ stepEnded (ended q) 1 image1 = true :=
  ⟨rfl, rfl, rfl, rfl, rfl, rfl, rfl, witness_installed { q with state := 2 }, witness_stepEnded q⟩
/-- The selvedge interval of a partition is 256; a boundary with it 0 does not run the barrier. -/
def noBarrier : State := updPart (ended { reqStop := true }) 1 fun p => { p with sync := { p.sync with interval := 0 } }
theorem witness_StepsEnd_noBarrier : (getPart noBarrier 1).sync.interval = 0 ∧ (stepOf noBarrier 1).interval = 0 ∧ (stepOf noBarrier 1).reqStop = true
    ∧ (stepOf noBarrier 1).phase = 0 ∧ (stepOf noBarrier 1).counter.toNat < 2 ^ 48 - 1 ∧ stepEnded noBarrier 1 image1 = true :=
  ⟨rfl, rfl, rfl, rfl, by decide, (witness_stepEnded { reqStop := true } :)⟩
theorem witness_StepsEnd_waits : inStep (inStep2 {}) 1 = true ∧ (stepOf (inStep2 {}) 1).phase = 0 ∧ stepEnded (inStep2 {}) 1 image1 = false
    ∧ inStep stopped 1 = false ∧ stepLimit (inStep2 {}) 1 = 0 ∧ stepTime { inStep2 {} with nowNs := 1 } 1 = 1
    ∧ causeHolds { inStep2 {} with shuttles := [(7, { threads := [(15, { state := 6 })] })] } 1 image1 3 = true := by decide +kernel

/-! ## Chip links -/

/-- Port 0 belongs to partition 1, which stands stopped; the package is chip 0. -/
def linked (q : Port) (r : Route) : State :=
  { base with parts := [(1, { part1 with active := { part1.active with ports := 1 } })], links := { ports := [(0, q)] }, routes := [(1, r)]
              shuttles := [(0, { tags := [(5, { valid := true, kind := some (.load 7 false true) })] })] }
def withCrc (pk : Packet) : Packet := { pk with crc := packetCrc pk }
def packet0 : Packet :=
  { destChip := 9, srcChip := 3, cls := 1, fseq := 0, lseq := 0, hops := 0, target := 0, length := 0, first := true, last := true, poison := false
    flowStart := false, flow := 7, msgLen := 0, srcThread := 0, tag := 5, operand := 0, crc := 0, payload := [] }
def transit : Packet := withCrc packet0
def replyPacket : Packet := withCrc { packet0 with destChip := 0, cls := 7, payload := [1, 2], length := 2, msgLen := 2 }
def port0 : Port := { state := 2, lanes := 24, credits := 4 }

theorem witness_PacketsArrive : (getPort (linked port0 {}) 0).state = 2 ∧ (getPort (linked port0 {}) 0).sinceAck < 63 ∧ packetCrc transit = transit.crc
    ∧ transit.lseq = (getPort (linked port0 {}) 0).lseqRx ∧ portOwner (linked port0 {}) 0 = 1 ∧ portOwner { linked port0 {} with parts := [] } 0 = 0
    ∧ transit.cls.toNat < 11 ∧ transit.destChip ≠ (linked port0 {}).links.chip ∧ transit.hops.toNat < 14
    ∧ candidates (linked port0 { table := [(9, 1)] }) 1 9 = [0] ∧ candidates (linked port0 {}) 1 9 = [] ∧ port0.asked = false
    ∧ packetCrc (withCrc { packet0 with hops := 14 }) = (withCrc { packet0 with hops := 14 }).crc := by decide +kernel

/-- The flow of chip 3 expects packet 0. -/
def expecting : State := linked { port0 with flows := [(chipFlow 3 7, { live := true, expected := 0 })] } {}

theorem witness_PacketsArrive_reply : packetCrc replyPacket = replyPacket.crc ∧ portOwner expecting 0 = 1 ∧ replyPacket.cls = 7
    ∧ replyPacket.destChip = expecting.links.chip ∧ replaying expecting 1 = false ∧ (getFlow expecting 0 (chipFlow 3 7)).live = true
    ∧ (getFlow expecting 0 (chipFlow 3 7)).expected = replyPacket.fseq ∧ (getFlow expecting 0 (chipFlow 3 7)).stored = []
    ∧ (getFlow expecting 0 (chipFlow 3 7)).skip = 0 ∧ beingSaved expecting 1 = false ∧ (getPart expecting 1).debugging.state ≠ 3
    ∧ ownerOfShuttle expecting 0 = 1 ∧ (getTag expecting 0 5).valid = true ∧ (getTag expecting 0 5).reply = none := by decide +kernel

theorem test_transit_hop : ((getRoute (after (.packetReceive 0 transit {}) (linked port0 { table := [(9, 1)] })) 1).waiting.map fun t => t.pk.hops) = [1] := by
  decide +kernel
theorem test_transit_drop : (getRoute (after (.packetReceive 0 transit {}) (linked port0 {})) 1).transitDrops = 1 := by decide +kernel

theorem witness_LinkControlAndEntries : (getPort (linked port0 {}) 0).state = 2 ∧ (getPort (linked { port0 with sinceAck := 1 } {}) 0).sinceAck ≠ 0
    ∧ (getPort (linked { port0 with sinceAck := 1 } {}) 0).ackAt + 200 ≤ { linked { port0 with sinceAck := 1 } {} with nowNs := 200 }.nowNs
    ∧ (16 : Nat) ≤ (if (15 : Nat) ≠ 0 ∧ (4 : BitVec 12) = 4 then 15 + 1 else 1) := by decide +kernel
theorem witness_LinkControlAndEntries_writes :
    Passes base .installer 0x5000 2 (List.replicate 48 0xFF) ∧ laneMapLegal base.fuses.variant (List.replicate 48 0xFF) = true
    ∧ Passes base .installer 0x501A 1 [1] ∧ bitAt (10 - 10) (ingestMask base.fuses.variant) = true ∧ Passes base .installer 0x5010 1 [0]
    ∧ Passes (linked port0 {}) .installer 0x5111 1 (wordsBytes 4096 (sPut 0 4095 1 (getRoute (linked port0 {}) 1).table))
    ∧ routesLegal (linked port0 {}) 1 (leBytes 2 1) = true ∧ Passes (linked port0 {}) .installer 0x5111 6 (List.replicate 512 0) :=
  ⟨passes_of (by decide +kernel), by decide +kernel, passes_of (by decide +kernel), by decide +kernel, passes_of (by decide +kernel),
    passes_of (by decide +kernel), by decide +kernel, passes_of (by decide +kernel)⟩

theorem test_sixteenth_retry : (getPort (after (.linkRetryRequest 0 4) (linked { port0 with retryRun := 15, retryName := 4 } {})) 0).downReason = 5 := by
  decide +kernel
theorem test_credits_cap : (getPort (after (.creditGrant 0 5000) (linked port0 {})) 0).credits = 4096 := by decide +kernel

/-- A packet that waits, one that is kept, and one that is kept for a thread of shuttle 0. -/
def tx0 : TxPacket := { pk := { packet0 with cls := 0 }, origin := .thread 0 5, transit := false, sent := none, port := 0, tries := 0 }
def waiting0 : State := linked port0 { table := [(9, 1)], waiting := [tx0] }
def kept : State := linked port0 { retained := [{ tx0 with sent := some 0 }] }

theorem witness_FlowsEndToEnd : firstDeparture waiting0 1 (getRoute waiting0 1).waiting 0 = some (0, tx0, 0)
    ∧ firstDeparture kept 1 (getRoute kept 1).waiting 0 = none
    ∧ sGet none (chipFlow 9 7) (getRoute (linked port0 { resend := [(chipFlow 9 7, some (0, 0))] }) 1).resend = some (0, 0)
    ∧ (getRoute kept 1).retained = [{ tx0 with sent := some 0 }] ∧ isLate { kept with nowNs := 50000 } 1 9 7 { tx0 with sent := some 0 } = true
    ∧ partExists kept 1 = true ∧ (9 : W16) ≠ kept.links.chip ∧ unreachableDue { kept with nowNs := 1000000 } 1 9 = true
    ∧ sGet false 9 (getRoute kept 1).unreach = false := by decide +kernel
theorem witness_FlowsEndToEnd_answers : (getPort kept 0).state = 2 ∧ portOwner kept 0 = 1 ∧ replaying kept 1 = false
    ∧ (getTag kept 0 5).valid = true ∧ (getTag kept 0 5).reply = none ∧ atOrBefore 0 0 = true ∧ tx0.pk.last = true ∧ tx0.pk.cls = 0
    ∧ flowIdle (getFlow { expecting with nowNs := 1000000 } 0 (chipFlow 3 7)) 1000000 = true
    ∧ e2eAckDue { live := true, expected := 1, sinceAck := 1 } 2000 = true
    ∧ syncDue { linked port0 {} with links := { role := 1, syncPort := 0, syncState := 1, ports := [(0, port0)] } } = true
    ∧ syncDue (linked port0 {}) = false := by decide +kernel

theorem test_departs : ((getPort (after (.packetDeparture 1) waiting0) 0).wire.length, (getPort (after (.packetDeparture 1) waiting0) 0).credits) = (1, 3) := by
  decide +kernel
theorem test_sync : (after (.timeSyncExchange 0 100 150 30) { linked port0 {} with rackNs := 1000, links := { role := 1, syncPort := 0, syncState := 1, ports := [(0, port0)] } }).rackNs
    = 1110 := by decide +kernel

/-! ## Ingest and management -/

/-- Port 10 of partition 1 serves ingest; slot 63 has a request of 16 bytes to 0x100 of shuttle 0. -/
def busySlot : SpoolSlot := { w3 := BitVec.ofNat 64 (0x100 * 2 ^ 8 + 16 * 2 ^ 26), state := 1, tries := 1, count := 1 }
def ingest (x : SpoolSlot) : State :=
  { base with parts := [(1, { part1 with active := { part1.active with ports := 0x400 } })]
              links := { ports := [(10, { mode := 1, state := 5, ipv6 := List.replicate 16 2, mac := 3, spool := [(63, x)] })] } }

theorem witness_SpoolRequestsAndFrames : isShuttle sh0 = true ∧ portFitted base.fuses.variant 10 = true
    ∧ mayReach (ingest {}) (.port 10 (0x2000 + 32 * 63)) sh0 = true ∧ (getSlot (ingest {}) 10 63).state ≠ 1 ∧ (getPort (ingest {}) 10).mode = 1
    ∧ replaying (ingest {}) (portOwner (ingest {}) 10) = false ∧ spoolLegal (ingest {}) 10 { busySlot with state := 0 } = true
    ∧ regionFor (ingest {}) sh0 (0x300010000000 + 10 * 0x100000 + 0x3000 + 8 * 63) = .port 10 (0x3000 + 8 * 63)
    ∧ mayReach (ingest {}) (.port 10 (0x3000 + 8 * 63)) sh0 = true ∧ (getPort (ingest busySlot) 10).state = 5
    ∧ slotOf (ingest busySlot) 10 (63 + 64) = some 63 ∧ slotOf (ingest busySlot) 10 63 = none
    ∧ spoolLength busySlot = 16 ∧ (8 : Nat) - (0 : W64).toNat + 8 ≤ spoolLength busySlot ∧ busySlot.since + 500000 ≤ { ingest busySlot with nowNs := 500000 }.nowNs
    ∧ busySlot.tries.toNat < 8 ∧ 8 ≤ ({ busySlot with tries := 8 } : SpoolSlot).tries.toNat := by decide +kernel
theorem witness_SpoolRequestsAndFrames_addresses : ingestHas (ingest {}) 10 0x02020202020202020202020202020202 = true
    ∧ ingestHas (ingest {}) 10 1 = false ∧ base.pack.pins.inReset = false
    ∧ mgmtHas { base with pack := { base.pack with io := { base.pack.io with ipv4 := 0x0A000001 } } } false 0x0A000001 = true := by decide +kernel

theorem test_spool_data : (getShuttle (after (.spoolDataFrame 10 127 8 [1, 2, 3, 4, 5, 6, 7, 8] (crc32c [1, 2, 3, 4, 5, 6, 7, 8])) (ingest busySlot)) 0).mem
    = (List.range 8).map fun i => (0x108 + i, BitVec.ofNat 8 (i + 1)) := by decide +kernel
theorem test_spool_stray : (getPort (after (.spoolErrorFrame 10 63 1) (ingest busySlot)) 10).rxDrops = 1 := by decide +kernel

/-! ## Clocks, power and configurations -/

/-- Partition 1 at beat code 20 of bounds 18 to 22, at its first change point after S-beat 8192. -/
def changing (c : Clock) (h : Hold) : State :=
  { base with parts := [(1, { part1 with active := { part1.active with ceiling := 22 }, clock := c, hold := h })]
              pack := { base.pack with regions := [(0, { state := 1, least := 2 })] } }
def atPoint (b : Byte) : State := changing { beat := b } { stepRuns := true, sBeat := 8192 }
/-- Its change to 21 was decided and may switch. -/
def switching (h : Hold) : State := changing { beat := 20, pending := some 21, due := 1, changeFrom := some 0 } { h with stepRuns := true, wBeat := 96 }

theorem witness_ClocksAndPower : 0 / 32 < diesOf base.fuses.variant ∧ partExists (atPoint 20) 1 = true ∧ atChangePoint (atPoint 20) 1 = true
    ∧ ((regionsOfPart (atPoint 20) 1).any fun r => regionDemands (getRegion (atPoint 20) r)) = true ∧ (getPart (atPoint 20) 1).clock.pending = none
    ∧ (getPart (atPoint 20) 1).active.floor.toNat < 20 ∧ 20 ≤ ceilingOf (atPoint 20) 1 ∧ ceilingOf (atPoint 23) 1 < 23
    ∧ 0 + (hold (switching {}) 1).hlat.toNat + 96 ≤ (hold (switching {}) 1).wBeat ∧ changeDisturbed (hold (switching {}) 1) 0 = false
    ∧ (getPart (switching {}) 1).clock.due.toNat ≤ (getPart (switching {}) 1).clock.decided + 1
    ∧ changeDisturbed (hold (switching { haltAt := some 95 }) 1) 0 = true := by decide +kernel
theorem witness_ClocksAndPower_power : (1600 : W16).toNat ≤ powerLimit base ∧ powerLimit { base with pack := { base.pack with power := { above := 3 } } } < (1601 : W16).toNat
    ∧ Passes base .installer 0x2200 5 [0] ∧ Passes base .installer 0x2200 1 (leBytes 2 (400 : W16).toNat) ∧ envelopeW base.fuses.variant ≤ 400 * 4
    ∧ 400 ≤ envelopeW base.fuses.variant ∧ budgetHolds (setPower base fun w => { w with limit := some 400 }) = true
    ∧ Passes base .installer 0x2311 9 (leBytes 2 (400 : W16).toNat) ∧ budgetHolds (updClock base 1 fun c => { c with share := 400 }) = true :=
  ⟨by decide +kernel, by decide +kernel, passes_of (by decide +kernel), passes_of (by decide +kernel), by decide +kernel, by decide +kernel,
    by decide +kernel, passes_of (by decide +kernel), by decide +kernel⟩

theorem test_beat_switch : (getPart (after (.beatSwitch 1) (switching {})) 1).clock.beat = 21 := by decide +kernel
theorem test_power_protect : (after (.powerSample 1601) { base with pack := { base.pack with power := { above := 3 } } }).pack.power.protect = 1 := by
  decide +kernel

/-- Partition 1 stages quadrant 0 or one that the part does not have. -/
def staging (quads : W32) : State := { base with parts := [(1, { part1 with staged := { part1.active with quads := quads } })] }
def moving : State := { base with sec := { base.sec with config := { state := 2, moves := [(1, 1)] } } }

theorem witness_ConfigurationsCommit : Passes (staging 1) .installer 0x3000 1 [1] ∧ Passes (staging 1) .installer 0x3000 1 [2]
    ∧ (staging 1).sec.config.state = 0 ∧ configRefusal (staging 1) = none
    ∧ accessCheck (staging 0x80000000) .installer 0x3000 1 true = 0 ∧ auditBlocked (staging 0x80000000) = false
    ∧ (configRefusal { staging 0x80000000 with fuses := { base.fuses with variant := .n2x36 } }).isSome = true
    ∧ sGet 0 1 moving.sec.config.moves ≠ 0 ∧ (∀ g, g < 32 → ownerOf moving g = 1 ∨ bitAt g (sGet 0 1 moving.sec.config.moves).toNat = false)
    ∧ sGet 0 1 base.sec.config.moves = 0 :=
  ⟨passes_of (by decide +kernel), passes_of (by decide +kernel), by decide +kernel⟩

/-- Function 1 has partition 1, and its window lies at offset 0 or over local memory of shuttle 0. -/
def hosting (w : BitVec 20) : State :=
  { base with parts := [(1, { part1 with active := { part1.active with vf := true } })]
              pack := { base.pack with io := { base.pack.io with mailboxes := [(1, { winBase := w })] } } }

theorem witness_ConfigurationsCommit_host : (hosting 0).pack.pins.inReset = false ∧ (hosting 0).pack.pins.perst = false
    ∧ waitsForBank (hosting 0) (.host 1) 8 8 = none ∧ replaying (hosting 0x20000) 1 = false
    ∧ regionFor (hosting 0x20000) (.host 1) ((getMailbox (hosting 0x20000) 1).winBase.toNat * 2 ^ 28 + 16) = .shuttleMem 0 16
    ∧ mayReach (hosting 0x20000) (.shuttleMem 0 16) (.host 1) = true := by decide +kernel

theorem test_commit_counts : (after (.configCommit .installer) (staging 1)).sec.config.generation = 1 := by decide +kernel
theorem test_host_write : (getShuttle (after (.hostWindowAccess 1 16 8 (some [7]) .clean) (hosting 0x20000)) 0).mem = [(16, 7)] := by decide +kernel

/-! ## Credentials, attestation and firmware -/

/-- A key, and a package that holds it or holds none. -/
def key97 : Bytes := 4 :: List.replicate 96 1
def delivered0 : State := { base with sec := {} }

/-- A grant for no partition that expires at 100 ns of rack time, and the key that signs it: the sum of the generator and that key is
the point whose x coordinate is the grant's digest. -/
def grantX : Nat := 0x886de88ff185caf6b59779aea9eb827587eaf7fb2e4e73ce3d9f3d7fc42cd8b2a0be12c675f2d72f69fbd2c18734dbe2
def grantKey : Bytes :=
  4 :: (beBytes 48 0x9e1a98a68becdf2b5abf0570a155580be64d62e5dc0b18f1e36a24cbdc42cb2992f64aee59db65f23836934bf1f66c9a
    ++ beBytes 48 0xd7c8a4ec2b97785f2a4c8ed1b5afc252c17cc839a6959a6784f50b34c4e9b1e44906cef2ac4eff06e00ec3f85abf1986)
def grant : Bytes := List.replicate 48 2 ++ leBytes 8 100 ++ leBytes 8 0 ++ beBytes 48 grantX ++ beBytes 48 grantX
def granting : State := { base with sec := { roles := { installerKey := grantKey } } }
def granted : State := { base with sec := { roles := { installerKey := grantKey, grant := grant } } }

theorem witness_CredentialsAndModule : allZero key97 = false ∧ Passes base .installer 0x1100 1 key97 ∧ base.pack.start.complete = true
    ∧ moduleDown base = false ∧ allZero delivered0.sec.roles.installerKey = true ∧ auditBlocked delivered0 = false ∧ key97.length = 97
    ∧ delivered0.sec.caerec.sealKey = [] ∧ allZero base.sec.roles.installerKey = false :=
  ⟨by decide +kernel, passes_of (by decide +kernel), by decide +kernel⟩
theorem witness_CredentialsAndModule_grants : Passes granting .installer 0x1100 2 grant ∧ allZero grant = false ∧ grantRefusal grant granting = 0
    ∧ Passes base .installer 0x1100 2 grant ∧ grantRefusal grant base ≠ 0 ∧ Passes base .installer 0x1100 2 (List.replicate 160 0)
    ∧ allZero (List.replicate 160 0) = true ∧ granted.sec.roles.grant ≠ [] ∧ ofLe (bytesAt granted.sec.roles.grant 48 8) ≤ { granted with rackNs := 100 }.rackNs.toNat
    ∧ granted.rackNs.toNat < ofLe (bytesAt granted.sec.roles.grant 48 8) :=
  ⟨passes_of (by decide +kernel), by decide +kernel, by decide +kernel, passes_of (by decide +kernel), by decide +kernel, passes_of (by decide +kernel),
    by decide +kernel, by decide +kernel, by decide +kernel, by decide +kernel⟩

/-- A seal waits in partition 1, whose slot is next. -/
def sealing : State := { base with parts := [(1, { part1 with seals := { queue := [[1, 2]] } })] }
theorem witness_CredentialsAndModule_module : Passes base .installer 0x3100 3 [1] ∧ allUnloaded base = true ∧ approvable base = true
    ∧ Passes base .installer 0x3100 3 [2] ∧ Passes base .installer 0x3100 3 [3] ∧ base.pack.pins.inReset = false ∧ base.sec.caerec.state = 0
    ∧ sealing.sec.caerec.slot.val + 1 = 1 ∧ sealing.pack.start.complete = true ∧ moduleDown sealing = false
    ∧ (getPart sealing 1).seals.queue = [[1, 2]] ∧ (getPart base 1).seals.queue = [] :=
  ⟨passes_of (by decide +kernel), by decide +kernel, by decide +kernel, passes_of (by decide +kernel), passes_of (by decide +kernel),
    by decide +kernel⟩

/-- A bundle that the generator's key and its double's key sign. -/
def releaseKey : Bytes := 4 :: (beBytes 48 ecG.1 ++ beBytes 48 ecG.2)
def doubleKey : Bytes :=
  4 :: (beBytes 48 0x08d999057ba3d2d969260045c55b97f089025959a6f434d651d207d19fb96e9e4fe0e86ebe0e64f85b96a9c75295df61
    ++ beBytes 48 0x8e80f1fa5b1b3cedb7bfe8dffd6dba74b275d875bc6cc43e904e505f256ab4255ffd43e94d39e22d61501e700a940e80)
def bundle : Bytes :=
  leBytes 8 (0x4D524946 + 2 ^ 32 + 3 * 2 ^ 48) ++ leBytes 8 320 ++ releaseKey ++ List.replicate 15 0
    ++ beBytes 48 0x11de24a2c251c777573cac5ea025e467f208e51dbff98fc54f6661cbe56583b037882f4a1ca297e60abcdbc3836d84bc
    ++ beBytes 48 0x969a3985506aa4f44582cc0a88d060db1f906f2a52fe0049a7cef0241f88d612d3a47c1517a3c06cd9d0fe7a933f8e57
    ++ beBytes 48 0x283c1d7365ce4788f29f8ebf234edffead6fe997fbea5ffa2d58cc9dfa7b1c508b05526f55b9ebb2040f05b48fb6d0e1
    ++ beBytes 48 0x4ff1e31fcd0db6e9215dc679c2a5f6d66eaa7169fa1de28481905f3bd149f5591816b09d1ae756050ba60216cfecad0a
def bundled (w : Firmware) : State :=
  { base with sec := { base.sec with roles := { installerKey := doubleKey }, fw := w }
              fuses := { base.fuses with releaseKey := beBytes 48 0x8c4f262412b7f9ed867606705a130de5212fd048fbaf8c3842f4a240f4b45ba0c90f82194ccdda3ed89c96b0afe1d51d } }

theorem witness_AttestationAuditAndFirmware : Passes base .installer 0x3110 1 (List.replicate 48 7) ∧ accessCheck base .installer 0x3110 2 false = 0
    ∧ Passes base .installer 0x1200 4 (leBytes 8 (0 : W64).toNat) ∧ (0 : W64).toNat ≤ base.sec.audit.headNumber.toNat
    ∧ oldestExported { base.sec.audit with exportedTo := 0 } = false ∧ Passes base .installer 0x1200 5 (List.replicate 152 0) :=
  ⟨passes_of (by decide +kernel), by decide +kernel, passes_of (by decide +kernel), by decide +kernel, by decide +kernel, passes_of (by decide +kernel)⟩
theorem witness_AttestationAuditAndFirmware_bundle : Passes (bundled { stage := bundle, rollback := 3 }) .installer 0x3300 2 [1]
    ∧ bundleOk (bundled { stage := bundle, rollback := 3 }) bundle = true ∧ (3 : Byte).toNat ≤ (bundleSvn bundle).toNat
    ∧ bundleOk (bundled {}) [] = false ∧ Passes (bundled {}) .installer 0x3300 2 [1] ∧ Passes (bundled { state := 2 }) .installer 0x3300 2 [2]
    ∧ Passes (bundled {}) .installer 0x3300 2 [3] :=
  ⟨passes_of (by decide +kernel), by decide +kernel, by decide +kernel, by decide +kernel, passes_of (by decide +kernel), passes_of (by decide +kernel),
    passes_of (by decide +kernel)⟩

/-- The digest of three letters, of an example of the standard. -/
theorem test_sha384 : sha384 [0x61, 0x62, 0x63]
    = beBytes 48 0xcb00753f45a35e8bb5a03d699ac65007272c32ab0eded1631a8b605a43ff5bed8086072ba1e7cc2358baeca134c825a7 := by decide +kernel

/-! ## Frames and events -/

/-- A frame of a role on the management port, and a session's requester. -/
def asks (op flags role : Byte) (index : W16) (sub : Byte) (data sig : Bytes) : DxpFrame :=
  { magic := 0x5844, version := 1, op := op, flags := flags, role := role, partition := 0, rsv7 := 0, requestId := 1, index := index
    subindex := sub, rsv15 := 0, offset := 0, length := BitVec.ofNat 16 data.length, rsv22 := 0, nonce := 1, data := data, signature := sig }
def peer : Transport := .mgmt 1 2

theorem heard_of {s : State} {tr : Transport} {f : DxpFrame} {op base u : Nat} {e : Entry} (h0 : (getSession s tr).lastReq = none)
    (h : s.pack.pins.inReset = false ∧ tr ≠ .i3c ∧ noFrame f = false ∧ f.op.toNat = op ∧ badFrame tr f = false
      ∧ (getSession s tr).executing = none ∧ transferLate s (getSession s tr) = false ∧ presentCheck s f.index.toNat f.subindex.toNat (op ≠ 6) = 0
      ∧ indexOf f.index.toNat = some (base, u) ∧ entryOf base f.subindex.toNat = some e) : Heard s tr f op base u e := by
  obtain ⟨a, b, c, d, g, i, j, k, l, m⟩ := h
  exact ⟨a, b, c, d, g, i, by simp [h0], j, k, l, m⟩

/-- Frames that the installer signs: the key that signs each is chosen as that of a grant above. -/
def writeFrame : DxpFrame :=
  let x := beBytes 48 0x5ae531e3dd760f6cc0e35f83ec448c015f2396d4099d4c9e95aa61c709c4096d4dc279376614281df5d97801560d9e9e
  asks 2 1 2 0x2200 5 [0] (x ++ x)
def writeKey : Bytes :=
  4 :: (beBytes 48 0x216b245f95a7f3a141b4905ec37f16e0aeb1b131baab1ca84a3bc490856e704c4861b8d1f95c160b6b5e161a328711ce
    ++ beBytes 48 0x4185d7e24f7e05f3d787c0638e0b932c6ca50e798d7770ecc7daf87a0cf8f19e2bf8cf00816d3a51f8e8e882e56c6727)
def initFrame : DxpFrame :=
  let x := beBytes 48 0xdf5069c9937cbaf19eccc86b046e77b9dde4d155404f1c39cb9417ae73e8870570ef0b1a111cb405c998ad159a2215e8
  asks 4 1 2 0x3300 1 (leBytes 4 4 ++ List.replicate 48 7) (x ++ x)
def initKey : Bytes :=
  4 :: (beBytes 48 0x4640bc5c60520d67fc669ba8e6b8d39f4a602c85bcb3185fa563b01e67e4aa05ef1f696cb449679cee921893fbdee9f7
    ++ beBytes 48 0x70ade8c1784bedea9ddc889d4751e2db600dd2889cbdd83ceae54a6827191592c4e59f69001df98f597299dfcd915d7a)
def holding (key : Bytes) : State := { base with sec := { roles := { installerKey := key } } }
def readFrame : DxpFrame := asks 1 0 0 0x0100 3 [] []
def segFrame : DxpFrame := asks 3 0 0 0x0120 3 (leBytes 4 64) []
def describeFrame : DxpFrame := asks 6 0 0 0x0100 3 [] []
def cancelFrame : DxpFrame := asks 7 0 0 0x0100 3 [] []

/-- A write transfer of two bytes to the firmware stage, of which one has come. -/
def transfer1 : Transfer :=
  { write := true, index := 0x3300, sub := 1, next := 0, total := 2, digest := sha384 [5, 6], data := [], role := .installer, since := 0 }
def transfer2 : Transfer := { transfer1 with next := 1, data := [5] }
def transferring (t : Transfer) : State := setTransfer peer (some t) base
def partFrame (last : Byte) (off : W32) (d : Bytes) : DxpFrame := { asks 5 last 2 0x3300 1 d [] with offset := off }

theorem checks_of {tr : Transport} {f : DxpFrame} {w : Bool} {s : State} (h : (passChecks tr f w s).1 = 0) :
    passChecks tr f w s = (0, (passChecks tr f w s).2) := by rw [← h]

theorem witness_FramesAreServed_read : (∃ e, Heard base peer readFrame 1 0x0100 0 e ∧ segmented peer e = false)
    ∧ passChecks peer readFrame false base = (0, (passChecks peer readFrame false base).2) ∧ roleOf readFrame ≠ .maker :=
  ⟨⟨_, heard_of (by decide +kernel) (by refine ⟨?_, ?_, ?_, ?_, ?_, ?_, ?_, ?_, ?_, rfl⟩ <;> decide +kernel), by decide +kernel⟩,
    checks_of (by decide +kernel), by decide +kernel⟩
theorem witness_FramesAreServed_write : (∃ e, Heard (holding writeKey) peer writeFrame 2 0x2200 0 e ∧ segmented peer e = false)
    ∧ firstKey (holding writeKey) peer writeFrame = false
    ∧ (passChecks peer writeFrame true (holding writeKey)).1 = 0 :=
  ⟨⟨_, heard_of (by decide +kernel) (by refine ⟨?_, ?_, ?_, ?_, ?_, ?_, ?_, ?_, ?_, rfl⟩ <;> decide +kernel), by decide +kernel⟩,
    by decide +kernel, by decide +kernel⟩
/-- A written entry whose effect is checked by evaluation. -/
theorem written_of {s : State} {r : Role} {ix sub b u : Nat} {d : Bytes} {e : Entry} (h : passes s r ix sub d = true)
    (h1 : indexOf ix = some (b, u)) (h2 : entryOf b sub = some e) (h3 : b ≠ 0xA010) (h4 : (entryWrite r ix b u sub e d s).1 = 0) :
    EntryWritten s r ix sub d (entryWrite r ix b u sub e d s).2 :=
  ⟨passes_of h, by intro w hw; rw [h1] at hw; injection hw with hw; injection hw with hw; exact absurd hw h3, b, u, e, h1, h2, by rw [← h4]⟩

theorem witness_FramesAreServed_written : ∃ s2, EntryWritten (passChecks peer writeFrame true (holding writeKey)).2 .installer 0x2200 5 [0] s2
    ∧ s2.pack.pins.flash.length ≤ (passChecks peer writeFrame true (holding writeKey)).2.pack.pins.flash.length :=
  ⟨_, written_of (b := 0x2200) (u := 0) (by decide +kernel) (by decide +kernel) rfl (by decide) (by decide +kernel), by decide +kernel⟩
theorem witness_FramesAreServed_segments : (∃ e, Heard base peer segFrame 3 0x0120 0 e ∧ segmented peer e = true)
    ∧ (getSession base peer).transfer = none ∧ segFrame.offset = 0 ∧ (passChecks peer segFrame false base).1 = 0 ∧ roleOf segFrame ≠ .maker
    ∧ openLace (setTransfer peer (some (newTransfer base segFrame false 0 [])) base) 0x0120 3 = none
    ∧ (segmentBytes .none 0x0120 3 0 (wantedBytes peer segFrame) (setTransfer peer (some (newTransfer base segFrame false 0 [])) base)).1 = 0 :=
  ⟨⟨_, heard_of (by decide +kernel) (by refine ⟨?_, ?_, ?_, ?_, ?_, ?_, ?_, ?_, ?_, rfl⟩ <;> decide +kernel), by decide +kernel⟩,
    by decide +kernel, by decide +kernel, by decide +kernel, by decide +kernel, by decide +kernel, by decide +kernel⟩
theorem witness_FramesAreServed_initiate : (∃ e, Heard (holding initKey) peer initFrame 4 0x3300 0 e ∧ segmented peer e = true)
    ∧ (passChecks peer initFrame true (holding initKey)).1 = 0
    ∧ (getSession (passChecks peer initFrame true (holding initKey)).2 peer).transfer = none :=
  ⟨⟨_, heard_of (by decide +kernel) (by refine ⟨?_, ?_, ?_, ?_, ?_, ?_, ?_, ?_, ?_, rfl⟩ <;> decide +kernel), by decide +kernel⟩,
    by decide +kernel, by decide +kernel⟩
theorem witness_FramesAreServed_parts : (∃ e, Heard (transferring transfer1) peer (partFrame 0 0 [5]) 5 0x3300 0 e)
    ∧ (∃ e, Heard (transferring transfer2) peer (partFrame 2 1 [6]) 5 0x3300 0 e) ∧ (∃ e, Heard (transferring transfer2) peer (partFrame 2 1 [7]) 5 0x3300 0 e)
    ∧ (getSession (transferring transfer1) peer).transfer = some transfer1 ∧ (getSession (transferring transfer2) peer).transfer = some transfer2
    ∧ isLast (partFrame 0 0 [5]) = false ∧ isLast (partFrame 2 1 [6]) = true ∧ sha384 (transfer2.data ++ [6]) = transfer2.digest
    ∧ sha384 (transfer2.data ++ [7]) ≠ transfer2.digest :=
  ⟨⟨_, heard_of (by decide +kernel) (by refine ⟨?_, ?_, ?_, ?_, ?_, ?_, ?_, ?_, ?_, rfl⟩ <;> decide +kernel)⟩,
    ⟨_, heard_of (by decide +kernel) (by refine ⟨?_, ?_, ?_, ?_, ?_, ?_, ?_, ?_, ?_, rfl⟩ <;> decide +kernel)⟩,
    ⟨_, heard_of (by decide +kernel) (by refine ⟨?_, ?_, ?_, ?_, ?_, ?_, ?_, ?_, ?_, rfl⟩ <;> decide +kernel)⟩,
    by decide +kernel, by decide +kernel, by decide +kernel, by decide +kernel, by decide +kernel, by decide +kernel⟩
theorem witness_FramesAreServed_staged : ∃ s2, EntryWritten (setTransfer peer none (transferring transfer2)) .installer 0x3300 1 [5, 6] s2
    ∧ s2.pack.pins.flash.length ≤ (transferring transfer2).pack.pins.flash.length :=
  ⟨_, written_of (b := 0x3300) (u := 0) (by decide +kernel) (by decide +kernel) rfl (by decide) (by decide +kernel), by decide +kernel⟩
theorem witness_FramesAreServed_other : (∃ e, Heard base peer describeFrame 6 0x0100 0 e) ∧ (∃ e, Heard base peer cancelFrame 7 0x0100 0 e) :=
  ⟨⟨_, heard_of (by decide +kernel) (by refine ⟨?_, ?_, ?_, ?_, ?_, ?_, ?_, ?_, ?_, rfl⟩ <;> decide +kernel)⟩,
    ⟨_, heard_of (by decide +kernel) (by refine ⟨?_, ?_, ?_, ?_, ?_, ?_, ?_, ?_, ?_, rfl⟩ <;> decide +kernel)⟩⟩

/-- A package to which a request was answered. -/
def served : State := after (.dxpRead peer readFrame) base
theorem witness_RequestsOfOtherForms : (Instr.dxpRead, 1) ∈ dxpRows ∧ readFrame.op.toNat = 1 ∧ base.pack.pins.inReset = false ∧ peer ≠ .i3c
    ∧ noFrame { readFrame with magic := 0 } = true ∧ noFrame readFrame = false ∧ (getSession base peer).executing = none
    ∧ (getSession base peer).lastReq = none ∧ transferLate base (getSession base peer) = false ∧ badFrame peer { readFrame with flags := 8 } = true
    ∧ noFrame { readFrame with flags := 8 } = false ∧ (getSession served peer).executing = none ∧ (getSession served peer).lastReq = some readFrame
    ∧ (getSession (transferring transfer1) peer).transfer = some transfer1
    ∧ transfer1.since + 10000000000 ≤ { transferring transfer1 with nowNs := 10000000000 }.nowNs ∧ (transferring transfer1).nowNs < transfer1.since + 10000000000 :=
  ⟨.head _, by decide +kernel⟩
theorem witness_RequestsOfOtherForms_i3c : base.pack.pins.inReset = false ∧ transferLate base (getSession base .i3c) = false
    ∧ indexOf (0x0100 : W16).toNat = some (0x0100, 0) ∧ (entryOf 0x0100 (3 : Byte).toNat).isSome = true
    ∧ presentCheck base (0x0100 : W16).toNat (3 : Byte).toNat false = 0 ∧ presentCheck base (0x0100 : W16).toNat (3 : Byte).toNat true = 0
    ∧ i3cReads (0x0100 : W16).toNat = true ∧ (entryOf 0x0100 (3 : Byte).toNat).map (segmented .i3c) = some false := by decide +kernel
theorem witness_RequestsOfOtherForms_mailbox : base.pack.pins.perst = false ∧ (0 : FuncNo).val = 0 ∧ functionOpen (hosting 0) (1 : FuncNo).val = true
    ∧ (getMailbox base 0).state ≠ 1 ∧ 32 ≤ (32 : BitVec 13).toNat ∧ (31 : BitVec 13).toNat < 32 ∧ (getMailbox (after (.mbDoorbell 0 31) base) 0).state = 1 := by
  decide +kernel
theorem witness_RequestsOfOtherForms_registers : (∃ s2, EntryWritten base .installer (0x2200 : W16).toNat (5 : Byte).toNat [0] s2)
    ∧ regionFor base (.shuttle 0 0) (0x200000000010 : BitVec 48).toNat = .shuttleMem 0 16
    ∧ mayReach base (.shuttleMem 0 16) (.shuttle 0 0) = true ∧ Passes base .installer 0x7000 1 [1] :=
  ⟨⟨_, written_of (b := 0x2200) (u := 0) (by decide +kernel) (by decide +kernel) rfl (by decide) (by decide +kernel)⟩, by decide +kernel, by decide +kernel,
    passes_of (by decide +kernel)⟩

/-! ## Events -/

/-- Source 0x302 is enabled and its line is up; ring 0 is a ring of 16 records in mailbox memory (kind 3) at a clock of its turn. -/
def ringing (kind : W64) (tail : BitVec 12) : State :=
  { base with events := { base.events with clock := 17, holdoff := false, sources := [(0x302, { enable := true, line := true })]
                                           rings := [(0, { cfg := kind + 0x40, tail := tail })] } }
def due0 : Assembly := { due := 17, ring := 0, source := 0x302, multiple := false, rack := 5, detail := 6, sBeat := 0 }
def assembled (kind : W64) (d : Nat) : State :=
  updMailbox 0 (fun m => { m with masked := false })
    { ringing kind 3 with events := { (ringing kind 3).events with assembly := [{ due0 with due := d }] } }

theorem witness_EventControllerAndRings_clock :
    ({ base with events := { base.events with writes := [.enableSet none 1], holdoff := true } } : State).events.writes = [.enableSet none 1]
    ∧ (ringing 3 3).events.writes = [] ∧ (ringing 3 3).events.holdoff = false ∧ ringKind (getRing base (base.events.clock % 17)) = 0
    ∧ ringKind (getRing (ringing 3 3) (17 % 17)) ≠ 0 ∧ eligible (setPendings (ringing 3 3)) (17 % 17) = some 0x302
    ∧ ringRoom (getRing (ringing 3 3) (17 % 17)) = true ∧ ringRoom (getRing (ringing 3 15) (17 % 17)) = false
    ∧ eligible (setPendings (ringing 3 15)) (17 % 17) = some 0x302 := by decide +kernel
theorem witness_EventControllerAndRings_record : (assembled 3 18).events.clock < 18 ∧ 17 ≤ (assembled 3 17).events.clock
    ∧ replaying (assembled 3 17) 0 = false ∧ (getPart (assembled 3 17) 0).recd.state ≠ 1 ∧ ringKind (getRing (assembled 3 17) 0) = 3
    ∧ ringKind (getRing (assembled 1 17) 0) = 1 ∧ (getMailbox (assembled 1 17) 0).masked = false := by decide +kernel
theorem witness_EventControllerAndRings_rings : ringLegal base 0 (0x43 : W64).toNat 0 = true ∧ ringKind (getRing base 0) = 0
    ∧ ringKind (getRing base 0) ≠ 2 ∧ bits 1 0 (0 : W64).toNat = 0 ∧ ringExists base 0 = true ∧ ringLegal (ringing 3 3) 0 (0x83 : W64).toNat 0 = true
    ∧ (0x83 : W64) ≠ (getRing (ringing 3 3) 0).cfg ∧ ringKind (getRing (ringing 3 3) 0) = 3 ∧ (8 : W64) ≠ (getRing (ringing 3 3) 0).base
    ∧ ringLegal base 0 (0x93 : W64).toNat 0 = false ∧ bits 1 0 (0x93 : W64).toNat + bits 19 4 (0x93 : W64).toNat * 16 = (0x93 : W64).toNat
    ∧ ringKind (getRing (assembled 1 17) 0) = 1 ∧ (getMailbox (assembled 1 17) 0).masked = false := by decide +kernel

/-! ## Debugging, recording and replay -/

/-- Partition 1 in step state `st`, with a debug unit, a hold unit and a recorder. -/
def debugged (st : Byte) (d : Debug) (h : Hold) (q : Recorder) : State :=
  { base with parts := [(1, { part1 with step := { state := st }, debugging := d, hold := h, recd := q })] }
def freeRun : Hold := { stepRuns := true, sBeat := 10, wBeat := 20 }
def heldRun : Hold := { freeRun with debug := true }
def areaAt : Debug := { state := 2, snapArea := 0x500000 }
def copying : State :=
  let s := debugged 2 { areaAt with state := 3 } heldRun {}
  setMaint s fun m => { m with active := [saveActivity s 1] }

theorem witness_DebugAndReadback_holds : Passes (debugged 2 {} freeRun {}) op 0xA101 1 [1] ∧ freeRun.debug = false ∧ stepState (debugged 2 {} freeRun {}) 1 = 2
    ∧ accessCheck base op 0xA101 1 true = 0 ∧ auditBlocked base = false ∧ stepState base 1 ≠ 2 ∧ stepState base 1 ≠ 5
    ∧ Passes (debugged 2 { argument := 40 } freeRun {}) op 0xA101 1 [2] ∧ fixedBeats freeRun ≤ 40 ∧ 9 < fixedBeats freeRun
    ∧ Passes (debugged 2 { argument := 9 } freeRun {}) op 0xA101 1 [2] ∧ partExists (debugged 2 {} freeRun {}) 1 = true
    ∧ ({ target := some (fixedBeats freeRun) } : Debug).target = some (fixedBeats freeRun) ∧ ({} : Debug).target ≠ some (fixedBeats freeRun) :=
  ⟨passes_of (by decide +kernel), by decide +kernel, by decide +kernel, by decide +kernel, by decide +kernel, by decide +kernel, by decide +kernel,
    passes_of (by decide +kernel), by decide +kernel, by decide +kernel, passes_of (by decide +kernel), by decide +kernel⟩
theorem witness_DebugAndReadback_held : Passes (debugged 2 { state := 2 } heldRun {}) op 0xA101 1 [3] ∧ heldRun.debug = true ∧ heldRun.frozen = false
    ∧ Passes (debugged 2 { state := 2, argument := 40 } heldRun {}) op 0xA101 1 [4] ∧ fixedBeats heldRun ≤ heldRun.sBeat + 40
    ∧ Passes (debugged 2 areaAt heldRun {}) op 0xA101 1 [5] ∧ underDebug (debugged 2 areaAt heldRun {}) 1 = true
    ∧ snapRefusal (debugged 2 areaAt heldRun {}) 1 = 0 ∧ maintBlocked (debugged 2 areaAt heldRun {}) (saveActivity (debugged 2 areaAt heldRun {}) 1) = false
    ∧ (debugOf copying 1).state = 3 ∧ (snapQuadsOf copying 1).any (fun g => (getLace copying g).capturePending) = false
    ∧ copying.pack.maint.waiting = [] ∧ (debugOf base 1).state ≠ 3 :=
  ⟨passes_of (by decide +kernel), by decide +kernel, by decide +kernel, passes_of (by decide +kernel), by decide +kernel, passes_of (by decide +kernel),
    by decide +kernel⟩
theorem witness_DebugAndReadback_words :
    Passes (debugged 2 { state := 2 } heldRun {}) op 0xA101 9 (leBytes 8 (here 0x100000002A00).toNat ++ leBytes 8 (0x70003 : W64).toNat)
    ∧ handleIsHere base (here 0x100000002A00) = true ∧ reaches base 1 (classify base.fuses.variant (bits 47 0 (here 0x100000002A00).toNat)) = true
    ∧ homeOf (classify base.fuses.variant (bits 47 0 (here 0x100000002A00).toNat)) = .tileKnot 0 0 0 ∧ bits 33 32 (0x70003 : W64).toNat = 0
    ∧ (getReadback base 1).base.toNat % 8 = 0 ∧ regionFor base (.dxp op) ((getReadback base 1).base.toNat + 0x200000000010) = .shuttleMem 0 16
    ∧ accessCheck base op 0xA011 2 false = 0 ∧ readbackRefusal base op 0x200000000010 = 0
    ∧ Passes base op 0xA011 2 (List.replicate 8 3) ∧ readbackWriteRefusal base op 0x200000000010 = 0 :=
  ⟨passes_of (by decide +kernel), by decide +kernel, by decide +kernel, by decide +kernel, by decide +kernel, by decide +kernel, by decide +kernel,
    by decide +kernel, by decide +kernel, passes_of (by decide +kernel), by decide +kernel⟩

def areaRec : Recorder := { areaOffset := 0x30000000, areaBytes := 1024 }
/-- A partition at a boundary, with a checkpoint of it and a recording of no entry in its area. -/
def replayable : State :=
  let s := { base with parts := [(1, { part1 with step := { state := 4, checkpoints := [{ complete := true }] }, recd := areaRec
                                                  pattern := { image := imageBytes, installed := imageBytes } })] }
  let h := List.replicate 7 0 ++ leBytes 1 (variantIx s.fuses.variant) ++ List.replicate 16 0 ++ fixedBytes 8 (placementBytes s 1)
    ++ List.replicate 48 0 ++ fixedBytes 48 s.sec.fw.activeDigest ++ fixedBytes 48 (laceDigests s 1) ++ List.replicate 48 0 ++ leBytes 8 0 ++ leBytes 8 3
  writeHbm 0 0x30000000 (fixedBytes 256 h) false s
/-- A replay in whose step one input is due. -/
def stampEntry : RecEntry :=
  { kind := 4, loc := false, flow := 0, target := 0xFFFF200000000010, offset := 2, step := 0, srcChip := 0xFFFF, payload := leBytes 8 6 }
def replayed (sBeat : Nat) (w : List (W64 × W64 × Nat)) : State :=
  writeHbm 0 (0x30000000 + 256) (entryBytes stampEntry) false
    (debugged 2 {} { stepRuns := true, sBeat := sBeat } { areaRec with state := 2, used := 320, waiting := w })

theorem witness_RecordingAndReplay : Passes (debugged 1 {} {} areaRec) op 0xB011 1 [1] ∧ areaRec.state ≠ 1 ∧ areaRec.state ≠ 2 ∧ areaRec.arming = false
    ∧ recordAreaFree (debugged 1 {} {} { areaRec with areaOffset := 0x70000000 }) 1 = true ∧ recordAreaFree (debugged 1 {} {} {}) 1 = false
    ∧ Passes (debugged 1 {} {} {}) op 0xB011 1 [1] ∧ Passes (debugged 1 {} {} { areaRec with areaOffset := 0x70000000 }) op 0xB011 1 [1]
    ∧ Passes (debugged 2 {} {} { areaRec with state := 1 }) op 0xB011 1 [2] ∧ Passes (debugged 2 {} {} { areaRec with state := 1 }) op 0xB011 1 [3]
    ∧ Passes (debugged 2 {} {} { areaRec with state := 2 }) op 0xB011 1 [4]
    ∧ Passes (debugged 1 {} {} areaRec) op 0xB011 5 (List.replicate 256 1) ∧ (List.replicate 256 1 : Bytes).length ≤ areaRec.areaBytes.toNat
    ∧ Passes (debugged 2 {} {} { areaRec with state := 1 }) op 0xB011 5 (List.replicate 256 1) :=
  ⟨passes_of (by decide +kernel), by decide +kernel, by decide +kernel, by decide +kernel, by decide +kernel, by decide +kernel,
    passes_of (by decide +kernel), passes_of (by decide +kernel), passes_of (by decide +kernel), passes_of (by decide +kernel),
    passes_of (by decide +kernel), passes_of (by decide +kernel), by decide +kernel, passes_of (by decide +kernel)⟩
theorem witness_RecordingAndReplay_start : Passes replayable op 0xB011 1 [3] ∧ ∃ t, startReplay 1 replayable = (0, t) := by
  refine ⟨passes_of (by decide +kernel), (startReplay 1 replayable).2, ?_⟩
  have h : (startReplay 1 replayable).1 = 0 := by decide +kernel
  rw [← h]
theorem witness_RecordingAndReplay_inputs : replaying (replayed 2 []) 1 = true ∧ stampsLeft (replayed 2 []) 1 = [(0, stampEntry)]
    ∧ stepOffset (replayed 2 []) 1 = stampEntry.offset ∧ inStep (replayed 2 []) 1 = true ∧ stampsLeft (replayed 1 []) 1 = [(0, stampEntry)]
    ∧ stepOffset (replayed 1 []) 1 ≠ stampEntry.offset ∧ replaying base 1 = false
    ∧ replayStalls { replayed 1 [(8, 1, 0), (8, 2, 0)] with nowNs := 10000000 } 1 = true ∧ replayStalls (replayed 1 []) 1 = false := by decide +kernel

/-! ## Maintenance -/

def scrub0 : Running := channelActivity base .scrub 0 3
def scrubbing : State := setMaint { base with hbm := [(0, { errors := [(3 * 8, .corrected)] })] } fun m => { m with active := [scrub0] }
def ported : State := { base with links := { base.links with ports := [(0, { state := 3 })] } }
/-- A retraining of channel 3 of die 0 at 100 ns of rack time. -/
def scheduled (rack : W64) : State :=
  setMaint { base with rackNs := rack } fun m => { m with schedule := [(0, leBytes 8 100 ++ leBytes 8 (1 + 3 * 256))] }
def flashing (op : FlashOp) : State := { base with pack := { base.pack with pins := { base.pack.pins with flash := [op], spiReq := true } } }
def oldSetting : FlashOp := .settings 0x7000 2 [0x21, 0]

theorem witness_MaintenanceActivities : Passes base .installer 0xA500 3 (leBytes 4 (3 * 256)) ∧ maintBlocked base scrub0 = false
    ∧ Passes scrubbing .installer 0xA500 3 (leBytes 4 (3 * 256)) ∧ maintBlocked scrubbing (channelActivity scrubbing .scrub 0 3) = true
    ∧ Passes base .installer 0xA500 3 (leBytes 4 (1 + 3 * 256)) ∧ maintBlocked base (channelActivity base .retrain 0 3) = false
    ∧ (getPort ported 0).state ≠ 0 ∧ portFitted ported.fuses.variant 0 = true ∧ Passes ported .installer 0xA500 3 (leBytes 4 2)
    ∧ (ownerOf base 0 = 0 ∨ stepState base (ownerOf base 0) = 0) ∧ Passes base .installer 0xA500 3 (leBytes 4 4)
    ∧ accessCheck base op 0x6010 8 false = 0 ∧ accessCheck base op 0x6010 9 false = 0 ∧ op ≠ .maker ∧ underTest base 0 = false
    ∧ maintBlocked base { laceActivity 0 with target := 256 } = false :=
  ⟨passes_of (by decide +kernel), by decide +kernel, passes_of (by decide +kernel), by decide +kernel, passes_of (by decide +kernel),
    by decide +kernel, by decide +kernel, by decide +kernel, passes_of (by decide +kernel), by decide +kernel, passes_of (by decide +kernel), by decide +kernel⟩
theorem witness_MaintenanceActivities_later : nextScheduled (scheduled 100) 0 = some (100 * 4096, 1 + 3 * 256) ∧ base.pack.start.complete = true
    ∧ 100 * 4096 / 4096 ≤ (scheduled 100).rackNs.toNat ∧ (scheduled 99).rackNs.toNat < 100 * 4096 / 4096 ∧ runningOn base 0 .scrub = none
    ∧ scrub0.activity = .scrub ∧ runningOn scrubbing 0 .scrub = some scrub0 ∧ scrubbing.pack.maint.waiting = [] ∧ (∀ e ∈ (getHbm scrubbing 0).errors, e.2 = .corrected)
    ∧ (flashing oldSetting).pack.pins.flash = [oldSetting] ∧ (flashing oldSetting).pack.io.sessions = [] := by decide +kernel

/-! ## Pins, rails, clocks and the start -/

def pinned (q : Pins) : State := { base with pack := { base.pack with pins := q } }
def up : Pins := base.pack.pins
def resting : Pins := { up with inReset := true, causeReg := 3 }
def synced (role : Byte) (period : W32) (last : Nat) : State :=
  { base with links := { base.links with role := role, period := period, lastEdge := last }, rackNs := 1499, nowNs := 3000 }

theorem witness_PinsRailsAndClocks : (pinned { up with vaux := false }).pack.pins.vaux = false ∧ (pinned { up with resetPin := true }).pack.pins.resetPin = true
    ∧ resting.vaux = true ∧ resting.inReset = true ∧ up.flash = [] ∧ up.inReset = false ∧ up.vaux = true ∧ resting.resetPin = false
    ∧ resting.thermtrip = false ∧ resting.causeReg ≠ 0 ∧ resting.causeReg ≠ 2 ∧ { resting with causeReg := 2 }.causeReg = 2 ∧ up.perst = false
    ∧ { up with perst := true }.perst = true ∧ 10 ≤ { base.pack.start with phase := 10 }.phase.toNat
    ∧ (synced 0 1000 0).links.role = 0 ∧ (synced 0 1000 0).links.period ≠ 0 ∧ (synced 0 1000 0).links.pulsed = false
    ∧ (synced 0 1000 0).links.lastEdge + 2 * (synced 0 1000 0).links.period.toNat ≤ (synced 0 1000 0).nowNs ∧ (synced 1 1000 0).links.role = 1
    ∧ scanBlocked base = false ∧ scanBlocked (debugged 2 {} {} {}) = true := by decide +kernel
theorem witness_PinsRailsAndClocks_jtag : granted.sec.caerec.approved = false ∧ granted.sec.roles.grant ≠ [] ∧ base.sec.roles.grant = [] := by decide +kernel

def beginning : State := { pack := { pins := { inReset := true, vaux := true, resetPin := false, startDue := true } } }
def outcome (n : Fin 12) (u : Fin 256) (ok hang : Bool) : PhaseOutcome :=
  { phase := n, unit := u, ok := ok, hang := hang, fallback := false, reason := 9, elapsedUs := 0, training := 0, positions := [] }
def stoppedAt (n u : Byte) (hung : Option (Nat × Nat)) : State :=
  { base with pack := { base.pack with start := { base.pack.start with state := 2, phase := n, stoppedUnit := u, hung := hung } } }

theorem witness_StartsAndStoppedStarts : mayStart beginning = true ∧ mayStart base = false ∧ Hangs [outcome 1 0 true true] 1 0
    ∧ ([outcome 1 0 false false].find? fun o => o.phase.val == 1 && o.unit.val == 0) = some (outcome 1 0 false false)
    ∧ (startOf (stoppedAt 4 0 (some (4, 0)))).hung = some (4, 0) ∧ base.pack.pins.inReset = false ∧ neverSkipped 4 0 = true
    ∧ (startOf base).hung = none ∧ (startOf (stoppedAt 10 0 none)).state = 2 ∧ Passes (stoppedAt 10 0 none) .installer 0x2000 4 [1]
    ∧ Hangs [outcome 10 0 true true] 10 0 ∧ Passes (stoppedAt 10 0 none) .installer 0x2000 4 [2] ∧ Passes (stoppedAt 3 0 none) .installer 0x2000 4 [2]
    ∧ neverSkipped (startOf (stoppedAt 3 0 none)).phase.toNat (startOf (stoppedAt 3 0 none)).stoppedUnit.toNat = true
    ∧ (startOf (stoppedAt 10 0 none)).phase = 10 ∧ (startOf (stoppedAt 10 0 none)).stoppedUnit = 0 ∧ Hangs [outcome 11 0 true true] 11 0
    ∧ Passes (stoppedAt 10 0 none) .installer 0x2000 4 [3] :=
  ⟨by decide +kernel, by decide +kernel, ⟨_, rfl, rfl⟩, by decide +kernel, by decide +kernel, by decide +kernel, by decide +kernel, by decide +kernel,
    by decide +kernel, passes_of (by decide +kernel), ⟨_, rfl, rfl⟩, passes_of (by decide +kernel), passes_of (by decide +kernel), by decide +kernel,
    by decide +kernel, by decide +kernel, ⟨_, rfl, rfl⟩, passes_of (by decide +kernel)⟩

end Sys2Proof.Tests
end

section
/-! What a slot operation's operand reads and a slot command leave unchanged, and the settlement of O17 (04 R124). -/

namespace Sys2Proof.Proofs
open Sys2Proof.Machine Sys2Proof.Stmt Sys2Proof.Laws

/-! ## Reading an operand changes what the tile notes, and nothing else -/

/-- `u` is `t` but for its fault record, its numeric state and what it notes of its beat: all that reading an operand may touch. -/
def OperandEffect (t u : Tile) : Prop := ∃ r n b, u = { t with fault := r, num := n, beat := b }

theorem OperandEffect.refl (t : Tile) : OperandEffect t t := ⟨_, _, _, rfl⟩

theorem OperandEffect.trans {t u v : Tile} (h : OperandEffect t u) (k : OperandEffect u v) : OperandEffect t v := by
  obtain ⟨r, n, b, rfl⟩ := h
  obtain ⟨r', n', b', rfl⟩ := k
  exact ⟨r', n', b', rfl⟩

theorem OperandEffect.arr_eq {t u : Tile} (h : OperandEffect t u) : u.arr = t.arr := by
  obtain ⟨r, n, b, rfl⟩ := h
  rfl

theorem OperandEffect.flights_eq {t u : Tile} (h : OperandEffect t u) : u.flights = t.flights := by
  obtain ⟨r, n, b, rfl⟩ := h
  rfl

theorem operandEffect_inBeat (w : W128) (t : Tile) : OperandEffect t (inBeat w t) := ⟨_, _, _, rfl⟩

theorem operandEffect_raise (c : BeatCtx) (code : Nat) (slot : BitVec 3) (d : Nat) (t : Tile) :
    OperandEffect t (raise c code slot d t) := by
  unfold raise recordFault
  split
  · exact ⟨_, _, _, rfl⟩
  · split <;> exact ⟨_, _, _, rfl⟩

theorem operandEffect_ptrBank (c : BeatCtx) (slot r : BitVec 3) (t : Tile) : OperandEffect t (ptrBank c slot r t).1 := by
  unfold ptrBank
  dsimp only
  split
  · exact operandEffect_raise ..
  · exact .refl t

theorem operandEffect_slotAccess (c : BeatCtx) (slot : BitVec 3) (exec : Nat) (bank : BitVec 4) (t : Tile) :
    OperandEffect t (slotAccess c slot exec bank t).1 := by
  have noted : OperandEffect t { t with beat := { t.beat with acc := t.beat.acc ++ [⟨bank, slot, exec⟩] } } := ⟨_, _, _, rfl⟩
  unfold slotAccess
  split
  · exact operandEffect_raise ..
  · dsimp only
    split
    · exact noted
    · exact noted.trans (operandEffect_raise ..)

theorem operandEffect_checkGated (c : BeatCtx) (slot : BitVec 3) (bank : BitVec 4) (w0 n : Nat) (t : Tile) :
    OperandEffect t (checkGated c slot bank w0 n t) := by
  unfold checkGated
  split
  · exact operandEffect_raise ..
  · exact .refl t

theorem operandEffect_readPtr (c : BeatCtx) (slot r : BitVec 3) (t : Tile) : OperandEffect t (readPtr c slot r t).1 := by
  have named := operandEffect_ptrBank c slot r t
  have accessed := named.trans (operandEffect_slotAccess c slot c.sBeat (getP t r).bank _)
  unfold readPtr
  dsimp only
  split
  · exact named
  · split
    · exact accessed
    · exact accessed.trans (operandEffect_checkGated ..)

theorem operandEffect_readPtrWord (c : BeatCtx) (slot r : BitVec 3) (t : Tile) : OperandEffect t (readPtrWord c slot r t).1 := by
  unfold readPtrWord
  dsimp only
  split <;> exact operandEffect_readPtr c slot r t

theorem operandEffect_countT2 (n : Nat) (t : Tile) : OperandEffect t (countT2 n t) := ⟨_, _, _, rfl⟩

theorem operandEffect_incPtr (inc : Bool) (r : BitVec 3) (t : Tile) : OperandEffect t (incPtr inc r t) := by
  unfold incPtr
  split
  · exact ⟨_, _, _, rfl⟩
  · exact .refl t

/-! ## The word that an M-slot operand takes (R75, R81) -/

theorem evenWord_eq_ofNat : ∀ w : BitVec 7, evenWord w = BitVec.ofNat 7 (w.toNat / 2 * 2) := by decide

theorem readPtrWord_snd (c : BeatCtx) (slot r : BitVec 3) (t : Tile) : (readPtrWord c slot r t).2 = mOperand t r := by
  have hmade : (decide ((getP t r).bank.toNat < 10) && (getP t r).bank != activeBank t)
      = decide ((getP t r).bank.toNat < 10 ∧ (getP t r).bank ≠ activeBank t) := by
    rw [Bool.eq_iff_iff, Bool.and_eq_true, decide_eq_true_iff, bne_iff_ne, decide_eq_true_iff]
  unfold readPtrWord mOperand
  dsimp only
  rw [hmade]
  by_cases made : (getP t r).bank.toNat < 10 ∧ (getP t r).bank ≠ activeBank t
  · rw [decide_eq_true made, if_neg (by decide), if_pos made]
    simp only [isRowBank, evenWord_eq_ofNat, decide_eq_true_eq]
  · rw [decide_eq_false made, if_pos (by decide), if_neg made]

@[simp] theorem mOperand_inBeat (w : W128) (t : Tile) (r : BitVec 3) : mOperand (inBeat w t) r = mOperand t r := rfl

/-! ## What a slot command changes -/

/-- `u` is `t` but for what a slot operation's results may touch. -/
def SlotEffect (t u : Tile) : Prop := ∃ r n b m l, u = { t with fault := r, num := n, beat := b, arr := m, flights := l }

/-- `ps` are the partitions of `s` but for the hold of partition `p`. -/
def HoldEffect (p : Nat) (s : State) (ps : Sparse Part) : Prop :=
  (∀ q, q ≠ p → sGet {} q ps = getPart s q) ∧ ∃ h, sGet {} p ps = { getPart s p with hold := h }

theorem ite_raiseHalt_eq (b : Bool) (p : Nat) (s : State) :
    ∃ ps, (if b then raiseHalt p s else s) = { s with parts := ps } ∧ HoldEffect p s ps := by
  cases b
  · exact ⟨s.parts, rfl, fun _ _ => rfl, _, rfl⟩
  · exact ⟨(raiseHalt p s).parts, rfl, fun q hq => getPart_updPart_ne s p q _ hq, _, getPart_updHold s p _⟩

theorem ite_assertEvent_eq (b : Bool) (k : Nat) (v : W64) (s : State) :
    ∃ e, (if b then assertEvent k v s else s) = { s with events := e } ∧ (b = false → e = s.events) := by
  cases b
  · exact ⟨_, rfl, fun _ => rfl⟩
  · exact ⟨_, rfl, nofun⟩

/-- A tile that loses no drained word changes, besides itself, the hold of its partition and, where it asserts a rescale, the events. -/
theorem putTileChecked_effect (p x y : Nat) (u : Tile) (s : State) (hd : u.drain = (getTile s (tileKey x y)).drain) :
    ∃ ps e, putTileChecked p x y u s = { putTile s (tileKey x y) u with parts := ps, events := e } ∧ HoldEffect p s ps
      ∧ (u.num.rescale = (getTile s (tileKey x y)).num.rescale → e = s.events) := by
  obtain ⟨ps, hps, hhold⟩ := ite_raiseHalt_eq (u.fault.valid && !(getTile s (tileKey x y)).fault.valid) p (putTile s (tileKey x y) u)
  obtain ⟨e, he, hsame⟩ := ite_assertEvent_eq (u.num.rescale && !(getTile s (tileKey x y)).num.rescale)
    (srcQuad (quadOf x y) 0) (n64 (x + y * 2 ^ 16)) { putTile s (tileKey x y) u with parts := ps }
  refine ⟨ps, e, ?_, hhold, fun hr => hsame (by rw [hr, Bool.and_not_self])⟩
  rw [← he, ← hps]
  simp only [putTileChecked, hd, BitVec.sub_self, BitVec.toNat_ofNat, Nat.zero_mod, if_true]

/-- `SlotFrame` holds when the tile changed as a slot operation may, and besides it only the hold and the events. -/
theorem slotFrame_of_effects {s t : State} {a : TileAt} {u : Tile} {ps : Sparse Part} {e : Events} (hu : SlotEffect (tile s a) u)
    (ht : t = { putTile s (atKey a) u with parts := ps, events := e }) (hps : HoldEffect (ownerOfAt s a) s ps)
    (he : u.num.rescale = (tile s a).num.rescale → e = s.events) :
    SlotFrame s t a ∧ tile t a = u := by
  have hget (k : Nat) : getTile t k = getTile (putTile s (atKey a) u) k := by rw [ht]; rfl
  have htile : tile t a = u := (hget (atKey a)).trans (getTile_putTile ..)
  have hpart (q : Nat) : getPart t q = sGet {} q ps := by rw [ht]; rfl
  obtain ⟨r, n, b, m, l, hu⟩ := hu
  obtain ⟨hothers, hhold⟩ := hps
  refine ⟨?_, htile⟩
  have others (k : Nat) (hk : k ≠ atKey a) : getTile t k = getTile s k := (hget k).trans (getTile_putTile_ne _ _ _ _ hk)
  have hevents : t.events = e := by rw [ht]
  simp only [SlotFrame, htile, hpart, hevents]
  have hrest := And.intro others (And.intro hothers (And.intro hhold he))
  simpa only [hu, ht, putTile_pending, putTile_freeCount, putTile_nowNs, putTile_rackNs, putTile_reply, putTile_fuses,
    putTile_sides, putTile_laces, putTile_hbm, putTile_hbmDies, putTile_quadCounts, putTile_shuttles, putTile_net, putTile_sec,
    putTile_links, putTile_routes, putTile_pack, true_and] using hrest

/-- A slot command whose operation changes its tile as a slot operation may answers that tile, within `SlotFrame`. -/
theorem slotCmd_effect (s : State) (a : TileAt) (w : W128) (f : BeatCtx → Tile → Tile) (hrun : tileRuns s a = true)
    (hf : SlotEffect (tile s a) (f (ctx s a) (inBeat w (tile s a)))) :
    ∃ t, slotCmd s a w f = .next t ∧ SlotFrame s t a ∧ tile t a = f (ctx s a) (inBeat w (tile s a)) := by
  have hdrain : (f (ctx s a) (inBeat w (tile s a))).drain = (tile s a).drain := by
    obtain ⟨r, n, b, m, l, hu⟩ := hf
    rw [hu]
  obtain ⟨ps, e, hput, hhold, he⟩ := putTileChecked_effect (ownerOfAt s a) a.x.toNat a.y.toNat _ s hdrain
  exact ⟨_, if_pos hrun, slotFrame_of_effects hf hput hhold he⟩

/-! ## The stationary chain (R124) -/

/-- The chain after the word `w` entered it at the tile's northern register: each register takes its northern neighbour's word. -/
def shiftedStat (w : Pz 64) (st : Sparse (Pz 64)) : Sparse (Pz 64) :=
  sPut {} 0 w (sPut {} 1 (sGet {} 0 st) (sPut {} 2 (sGet {} 1 st) (sPut {} 3 (sGet {} 2 st) [])))

theorem sGet_shiftedStat_zero (w : Pz 64) (st : Sparse (Pz 64)) : sGet {} 0 (shiftedStat w st) = w := sGet_sPut_self ..

theorem sGet_shiftedStat_succ (w : Pz 64) (st : Sparse (Pz 64)) (i : Nat) (hi : i < 3) :
    sGet {} (i + 1) (shiftedStat w st) = sGet {} i st := by
  unfold shiftedStat
  rw [sGet_sPut_ne _ _ _ _ _ (by omega)]
  match i, hi with
  | 0, _ => exact sGet_sPut_self ..
  | 1, _ => rw [sGet_sPut_ne _ _ _ _ _ (by decide)]; exact sGet_sPut_self ..
  | 2, _ => rw [sGet_sPut_ne _ _ _ _ _ (by decide), sGet_sPut_ne _ _ _ _ _ (by decide)]; exact sGet_sPut_self ..

@[simp] theorem satAdd_toNat (w : Nat) (x : BitVec w) (n : Nat) : (satAdd w x n).toNat = min (x.toNat + n) (2 ^ w - 1) := by
  have : 0 < 2 ^ w := Nat.two_pow_pos w
  rw [satAdd, BitVec.toNat_ofNat, Nat.mod_eq_of_lt (by omega)]

/-- The tile `u` after the word `w` entered its part of the chain, with its own southern word driven on. -/
def shiftChain (c : BeatCtx) (f : MF) (w : Pz 64) (u : Tile) : Tile :=
  { u with
    arr := { closeGroup u.arr with
      stat := shiftedStat w u.arr.stat, loadShifts := satAdd 13 u.arr.loadShifts 1
      pipe := u.arr.pipe ++ [{ op := 1, stat := f.stat, mfmt := u.mode.cur.mfmt, exec := c.sBeat }] }
    beat := { u.beat with out := { u.beat.out with south := sGet {} 3 u.arr.stat } } }

theorem OperandEffect.slotEffect_shiftChain {t u : Tile} (h : OperandEffect t u) (c : BeatCtx) (f : MF) (w : Pz 64) :
    SlotEffect t (shiftChain c f w u) := by
  obtain ⟨r, n, b, rfl⟩ := h
  exact ⟨_, _, _, _, _, rfl⟩

/-- R124: an `mload` reads its operand in the top row and takes its north neighbour's word elsewhere; then the chain shifts. -/
theorem mLoad_eq_shiftChain (c : BeatCtx) (f : MF) (t : Tile) :
    ∃ u, OperandEffect t u ∧ mLoad c f t = shiftChain c f (if t.hoop.top then mOperand t f.pa else c.north.south) u := by
  by_cases htop : t.hoop.top = true
  · have hread := operandEffect_readPtrWord c 3 f.pa t
    rw [if_pos htop, ← readPtrWord_snd c 3]
    simp only [mLoad, htop, if_true]
    refine ⟨_, ?_, rfl⟩
    refine OperandEffect.trans ?_ (operandEffect_incPtr f.incA f.pa _)
    split
    · exact hread.trans (operandEffect_countT2 _ _)
    · exact hread
  · exact ⟨t, .refl t, by simp only [mLoad, htop]; rfl⟩

/-- Settles O17: the operand's effects touch neither the array nor the results in flight, and after them the chain shifts. -/
theorem matrixLoadShiftsChain : Obligations.MatrixLoadShiftsChain := by
  unfold Obligations.MatrixLoadShiftsChain
  intro s a f hrun hstat
  have hop : mOp (ctx s a) 1 f (inBeat (mWord 1 f) (tile s a)) = mLoad (ctx s a) f (inBeat (mWord 1 f) (tile s a)) := if_neg hstat
  obtain ⟨u, hread, hload⟩ := mLoad_eq_shiftChain (ctx s a) f (inBeat (mWord 1 f) (tile s a))
  have heffect := (operandEffect_inBeat (mWord 1 f) (tile s a)).trans hread
  obtain ⟨t, hnext, hframe, htile⟩ := slotCmd_effect s a (mWord 1 f) (fun c t => mOp c 1 f t) hrun
    (by rw [hop, hload]; exact heffect.slotEffect_shiftChain _ _ _)
  replace htile := htile.trans (hop.trans hload)
  refine ⟨t, hnext, ⟨hframe, ?_⟩, ?_⟩
  · rw [htile]
    exact heffect.flights_eq
  · simp only [htile, shiftChain, closeGroup, heffect.arr_eq, satAdd_toNat, inBeat_hoop, mOperand_inBeat, Nat.reducePow,
      Nat.reduceSub, and_true]
    exact ⟨sGet_shiftedStat_zero .., sGet_shiftedStat_succ _ _⟩

end Sys2Proof.Proofs
end

section
/-! The V-slot's operands, the tile that its operation answers, and the settlement of O11 and O12 (06 R168 to R175). -/

namespace Sys2Proof.Proofs
open Sys2Proof.Machine Sys2Proof.Stmt Sys2Proof.Laws

/-! ## Reading an operand leaves the numeric state and the pointer increments -/

theorem raise_eq_fault (c : BeatCtx) (code : Nat) (slot : BitVec 3) (d : Nat) (t : Tile) :
    ∃ r, raise c code slot d t = { t with fault := r } := by
  unfold raise recordFault
  split
  · exact ⟨_, rfl⟩
  · split <;> exact ⟨_, rfl⟩

@[simp] theorem raise_num (c : BeatCtx) (code : Nat) (slot : BitVec 3) (d : Nat) (t : Tile) : (raise c code slot d t).num = t.num := by
  obtain ⟨r, h⟩ := raise_eq_fault c code slot d t
  rw [h]

@[simp] theorem raise_beat (c : BeatCtx) (code : Nat) (slot : BitVec 3) (d : Nat) (t : Tile) : (raise c code slot d t).beat = t.beat := by
  obtain ⟨r, h⟩ := raise_eq_fault c code slot d t
  rw [h]

/-- What a V-slot operand's read may touch: the numeric state and the pointer increments stay as well. -/
structure ReadEffect (t u : Tile) : Prop where
  operand : OperandEffect t u
  num_eq : u.num = t.num
  ptrOps_eq : u.beat.ptrOps = t.beat.ptrOps

theorem ReadEffect.refl (t : Tile) : ReadEffect t t := ⟨.refl t, rfl, rfl⟩

theorem ReadEffect.trans {t u v : Tile} (h : ReadEffect t u) (k : ReadEffect u v) : ReadEffect t v :=
  ⟨h.operand.trans k.operand, k.num_eq.trans h.num_eq, k.ptrOps_eq.trans h.ptrOps_eq⟩

theorem readEffect_raise (c : BeatCtx) (code : Nat) (slot : BitVec 3) (d : Nat) (t : Tile) : ReadEffect t (raise c code slot d t) :=
  ⟨operandEffect_raise .., raise_num .., congrArg BeatState.ptrOps (raise_beat ..)⟩

theorem readEffect_slotAccess (c : BeatCtx) (slot : BitVec 3) (exec : Nat) (bank : BitVec 4) (t : Tile) :
    ReadEffect t (slotAccess c slot exec bank t).1 := by
  have noted : ReadEffect t { t with beat := { t.beat with acc := t.beat.acc ++ [⟨bank, slot, exec⟩] } } := ⟨⟨_, _, _, rfl⟩, rfl, rfl⟩
  unfold slotAccess
  split
  · exact readEffect_raise ..
  · dsimp only
    split
    · exact noted
    · exact noted.trans (readEffect_raise ..)

theorem readEffect_checkGated (c : BeatCtx) (slot : BitVec 3) (bank : BitVec 4) (w0 n : Nat) (t : Tile) :
    ReadEffect t (checkGated c slot bank w0 n t) := by
  unfold checkGated
  split
  · exact readEffect_raise ..
  · exact .refl t

theorem readEffect_ptrBank (c : BeatCtx) (slot r : BitVec 3) (t : Tile) : ReadEffect t (ptrBank c slot r t).1 := by
  unfold ptrBank
  dsimp only
  split
  · exact readEffect_raise ..
  · exact .refl t

theorem readEffect_readPtr (c : BeatCtx) (slot r : BitVec 3) (t : Tile) : ReadEffect t (readPtr c slot r t).1 := by
  have named := readEffect_ptrBank c slot r t
  have accessed := named.trans (readEffect_slotAccess c slot c.sBeat (getP t r).bank _)
  unfold readPtr
  dsimp only
  split
  · exact named
  · split
    · exact accessed
    · exact accessed.trans (readEffect_checkGated ..)

theorem readEffect_vOperand (c : BeatCtx) (x : BitVec 4) (seen : List (BitVec 3 × Pz 128)) (t : Tile) :
    ReadEffect t (vOperand c x seen t).1 := by
  unfold vOperand
  split
  · exact .refl t
  · split
    · exact .refl t
    · exact readEffect_readPtr ..

/-! ## The tile whose V-slot has read its operands (R79, R168) -/

/-- The tile as the V-slot of opcode `op` finds it. -/
abbrev vTile (s : State) (a : TileAt) (op : Nat) (f : VF) : Tile := inBeat (vWord op f) (tile s a)

theorem vLegal_inBeat (w : W128) (t : Tile) (op : Nat) (f : VF) : vLegal (inBeat w t) op f = vLegal t op f := rfl

theorem vTile_legal {s : State} {a : TileAt} {op : Nat} {f : VF} (h : vLegal (tile s a) op f = true) :
    vLegal (vTile s a op f) op f = true := (vLegal_inBeat ..).trans h

/-- The tile after the operand reads of a V-slot, and the operands a, b and c as read. -/
def vReads (c : BeatCtx) (op : Nat) (f : VF) (t : Tile) : Tile × Pz 128 × Pz 128 × Pz 128 :=
  let r1 := vOperand c f.a [] t
  let r2 := if vReadsB op then vOperand c f.b r1.2.2 r1.1 else (r1.1, {}, r1.2.2)
  let r3 := if op = 4 then vOperand c f.c r2.2.2 r2.1 else (r2.1, {}, r2.2.2)
  (r3.1, r1.2.1, r2.2.1, r3.2.1)

theorem vReads_snd (s : State) (a : TileAt) (op : Nat) (f : VF) :
    (vReads (ctx s a) op f (vTile s a op f)).2 = vRead s a op f := rfl

theorem readEffect_vReads (c : BeatCtx) (op : Nat) (f : VF) (t : Tile) : ReadEffect t (vReads c op f t).1 := by
  have reads (p : Prop) [Decidable p] (x : BitVec 4) (r : Tile × Pz 128 × List (BitVec 3 × Pz 128)) :
      ReadEffect r.1 (if p then vOperand c x r.2.2 r.1 else (r.1, {}, r.2.2)).1 := by
    split
    · exact readEffect_vOperand ..
    · exact .refl _
  exact ((readEffect_vOperand c f.a [] t).trans (reads _ f.b _)).trans (reads _ f.c _)

/-- The tile after its operand reads, with their pointer increments noted. -/
def vReady (c : BeatCtx) (op : Nat) (f : VF) (t : Tile) : Tile :=
  vIncs f.inc ([f.a] ++ (if vReadsB op then [f.b] else []) ++ (if op = 4 then [f.c] else [])) (vReads c op f t).1

theorem vIncs_eq_note (inc : Bool) (fs : List (BitVec 4)) (t : Tile) :
    vIncs inc fs t = { t with beat := { t.beat with
      ptrOps := t.beat.ptrOps ++ if inc then (fs.filterMap vPointer).map fun r => ⟨r, none⟩ else [] } } := by
  induction fs generalizing t with
  | nil => cases inc <;> simp [vIncs]
  | cons x xs ih =>
    rw [vIncs, List.foldl_cons, ← vIncs, ih]
    cases hx : vPointer x <;> cases inc <;> simp [hx, incPtr]

theorem operandEffect_vReady (c : BeatCtx) (op : Nat) (f : VF) (t : Tile) : OperandEffect t (vReady c op f t) := by
  rw [vReady, vIncs_eq_note]
  exact (readEffect_vReads c op f t).operand.trans ⟨_, _, _, rfl⟩

theorem vReady_num (c : BeatCtx) (op : Nat) (f : VF) (t : Tile) : (vReady c op f t).num = t.num := by
  rw [vReady, vIncs_eq_note]
  exact (readEffect_vReads c op f t).num_eq

theorem vReady_ptrOps (c : BeatCtx) (op : Nat) (f : VF) (t : Tile) :
    (vReady c op f t).beat.ptrOps = t.beat.ptrOps ++ vIncsOf op f := by
  rw [vReady, vIncs_eq_note]
  exact congrArg (· ++ vIncsOf op f) (readEffect_vReads c op f t).ptrOps_eq

/-! ## The tile that a V-slot operation answers -/

/-- The tile `t` with its numeric state changed by `num` and the result `fl` in flight. -/
def withFlight (num : NumState → NumState) (fl : Flight) (t : Tile) : Tile :=
  { t with num := num t.num, flights := t.flights ++ [fl] }

@[simp] theorem withFlight_num (num : NumState → NumState) (fl : Flight) (t : Tile) : (withFlight num fl t).num = num t.num := rfl
@[simp] theorem withFlight_flights (num : NumState → NumState) (fl : Flight) (t : Tile) :
    (withFlight num fl t).flights = t.flights ++ [fl] := rfl
@[simp] theorem withFlight_arr (num : NumState → NumState) (fl : Flight) (t : Tile) : (withFlight num fl t).arr = t.arr := rfl
@[simp] theorem withFlight_beat (num : NumState → NumState) (fl : Flight) (t : Tile) : (withFlight num fl t).beat = t.beat := rfl

theorem OperandEffect.slotEffect_withFlight {t u : Tile} (h : OperandEffect t u) (num : NumState → NumState) (fl : Flight) :
    SlotEffect t (withFlight num fl u) := by
  obtain ⟨r, n, b, rfl⟩ := h
  exact ⟨_, _, _, _, _, rfl⟩

/-- A V-slot command meets `VAdds` when its operation answers the tile that has read its operands, with the result in flight. -/
theorem vAdds_of_vOp {cmd : Instr} {s : State} {a : TileAt} {op : Nat} {f : VF} {num : NumState → NumState} {fl : Flight}
    (hrun : tileRuns s a = true) (hcmd : exec cmd s = slotCmd s a (vWord op f) fun c t => vOp c op f t)
    (h : vOp (ctx s a) op f (vTile s a op f) = withFlight num fl (vReady (ctx s a) op f (vTile s a op f))) : VAdds cmd s a op f num fl := by
  have heffect := (operandEffect_inBeat (vWord op f) (tile s a)).trans (operandEffect_vReady (ctx s a) op f _)
  obtain ⟨t, hnext, hframe, htile⟩ := slotCmd_effect s a (vWord op f) (fun c t => vOp c op f t) hrun
    (by rw [h]; exact heffect.slotEffect_withFlight num fl)
  replace htile := htile.trans h
  refine ⟨t, hcmd.trans hnext, hframe, ?_, ?_, ?_, ?_⟩ <;> rw [htile]
  · rw [withFlight_arr, heffect.arr_eq]
  · rw [withFlight_num, vReady_num, inBeat_num]
  · rw [withFlight_flights, heffect.flights_eq]
  · rw [withFlight_beat, vReady_ptrOps, inBeat_beat_ptrOps]

/-! ## The mask of a comparison -/

/-- The number whose bit k is set for each k below `n` that meets `P`. -/
def bitSum (n : Nat) (P : Nat → Bool) : Nat := ((List.range n).filter P).foldl (fun acc k => acc + 2 ^ k) 0

theorem bitSum_succ (n : Nat) (P : Nat → Bool) : bitSum (n + 1) P = bitSum n P + if P n then 2 ^ n else 0 := by
  cases h : P n <;> simp [bitSum, List.range_succ, h]

theorem bitSum_lt (n : Nat) (P : Nat → Bool) : bitSum n P < 2 ^ n := by
  induction n with
  | zero => exact Nat.one_pos
  | succ n ih =>
    rw [bitSum_succ, Nat.pow_succ]
    split <;> omega

theorem testBit_bitSum_succ (n : Nat) (P : Nat → Bool) (k : Nat) :
    (bitSum (n + 1) P).testBit k = ((bitSum n P).testBit k || (P n && decide (n = k))) := by
  rw [bitSum_succ]
  cases P n
  · simp
  · have hor : 2 ^ n + bitSum n P = 2 ^ n ||| bitSum n P := by simpa using Nat.two_pow_add_eq_or_of_lt (bitSum_lt n P) 1
    rw [if_pos rfl, Nat.add_comm, hor, Nat.testBit_or, Nat.testBit_two_pow, Bool.or_comm, Bool.true_and]

theorem testBit_bitSum (n : Nat) (P : Nat → Bool) (k : Nat) : (bitSum n P).testBit k = (decide (k < n) && P k) := by
  induction n with
  | zero => simp [bitSum]
  | succ n ih =>
    rw [testBit_bitSum_succ, ih]
    by_cases hk : n = k
    · simp [hk]
    · simp [hk, show k < n + 1 ↔ k < n by omega]

theorem vIsCompare_iff {op : Nat} : vIsCompare op = true ↔ op = 8 ∨ op = 9 ∨ op = 10 := by
  simp [vIsCompare, or_assoc]

/-! ## What each legal operation answers -/

theorem OperandEffect.getM_eq {t u : Tile} (h : OperandEffect t u) (r : BitVec 2) : getM u r = getM t r := by
  obtain ⟨_, _, _, rfl⟩ := h
  rfl

/-- The mask that a V-slot's c field selects, when its operands have been read. -/
def vMask (c : BeatCtx) (op : Nat) (f : VF) (t : Tile) : Pz 16 := getM (vReady c op f t) (f.c.setWidth 2)

theorem vMask_eq_getM (c : BeatCtx) (op : Nat) (f : VF) (t : Tile) : vMask c op f t = getM t (f.c.setWidth 2) :=
  (operandEffect_vReady c op f t).getM_eq _

/-- Whether a result of operands `r` and mask `k` is poisoned: an operand that its operation reads is. -/
def vPoison (op : Nat) (r : Pz 128 × Pz 128 × Pz 128) (k : Pz 16) : Bool :=
  r.1.poison || (vReadsB op && r.2.1.poison) || (op == 4 && r.2.2.poison) || (vMasked op && k.poison)

/-- The answer of an operation that writes all of vd with `v`. -/
def fullWrite (c : BeatCtx) (op : Nat) (f : VF) (t : Tile) (v : W128) : Tile :=
  withFlight (cursorClear f.vd)
    (vFlight c.sBeat (vLatency op f.ty.toNat) op f.ty .vector (f.vd.setWidth 4) v ones128 0 false false
      (vPoison op (vReads c op f t).2 (vMask c op f t)))
    (vReady c op f t)

theorem vResult_eq_withFlight (c : BeatCtx) (op : Nat) (f : VF) (target : Target) (reg : BitVec 4) (v m aux : W128)
    (part pair p : Bool) (t : Tile) :
    vResult c op f target reg v m aux part pair p 0 0 t
      = withFlight id (vFlight c.sBeat (vLatency op f.ty.toNat) op f.ty target reg v m aux part pair p) t := rfl

theorem withFlight_setCursor (fl : Flight) (r : BitVec 3) (t : Tile) :
    withFlight id fl (setCursor r 0 t) = withFlight (cursorClear r) fl t := rfl

section
variable {c : BeatCtx} {op : Nat} {f : VF} {t : Tile}

theorem vOp_lanewise (hlegal : vLegal t op f = true) (hop : op ≤ 7) :
    let r := (vReads c op f t).2
    let w := laneWidth f.ty
    vOp c op f t = fullWrite c op f t (mapLanes f.ty fun k =>
      vLane op f.ty (lane w k r.1.data) (lane w k (vBroadcast f.ty f.bcast r.2.1.data)) (lane w k r.2.2.data)) := by
  intro r w
  rw [vOp, if_neg (by simp [hlegal])]
  dsimp only
  rw [if_pos hop, vResult_eq_withFlight, withFlight_setCursor]
  rfl

theorem vOp_compare (hlegal : vLegal t op f = true) (hop : vIsCompare op = true) :
    let r := (vReads c op f t).2
    let w := laneWidth f.ty
    vOp c op f t = withFlight id
      (vFlight c.sBeat (vLatency op f.ty.toNat) op f.ty .mask ((f.vd.setWidth 2).setWidth 4)
        (BitVec.ofNat 128 (bitSum (laneCount f.ty) fun k =>
          vCompare op f.ty (lane w k r.1.data) (lane w k (vBroadcast f.ty f.bcast r.2.1.data))))
        0xFFFF 0 false false (vPoison op (vReads c op f t).2 (vMask c op f t))) (vReady c op f t) := by
  intro r w
  have hop7 : ¬ op ≤ 7 := by rw [vIsCompare_iff] at hop; omega
  rw [vOp, if_neg (by simp [hlegal])]
  dsimp only
  rw [if_neg hop7, if_pos hop, vResult_eq_withFlight]
  rfl

/-- What an operation that neither works lane by lane nor compares writes to all of vd (R172, R175). -/
def wholeValue (op : Nat) (f : VF) (r : Pz 128 × Pz 128 × Pz 128) (mask : W16) : W128 :=
  match op with
  | 0x0B => mapLanes f.ty fun i =>
      if bitAt i mask.toNat then lane (laneWidth f.ty) i r.1.data
      else lane (laneWidth f.ty) i (vBroadcast f.ty f.bcast r.2.1.data)
  | 0x0C => vCompress f.ty mask r.1.data
  | 0x18 => mapLanes f.ty fun _ => vMaxAll f.ty r.1.data
  | 0x19 => mapLanes f.ty fun _ => vSum f.ty r.1.data
  | _ => r.1.data

theorem vOp_whole (hlegal : vLegal t op f = true) (hop : op ∈ [0x0B, 0x0C, 0x18, 0x19, 0x20]) :
    vOp c op f t = fullWrite c op f t (wholeValue op f (vReads c op f t).2 (vMask c op f t).data) := by
  simp only [List.mem_cons, List.not_mem_nil, or_false] at hop
  obtain rfl | rfl | rfl | rfl | rfl := hop <;>
  · rw [vOp, if_neg (by simp [hlegal])]
    dsimp only
    rw [if_neg (by decide), if_neg (by decide), vResult_eq_withFlight, withFlight_setCursor]
    simp only [fullWrite, vPoison, vMask, vReady, vReads]
    rfl

theorem vOp_vexpand (hlegal : vLegal t 0x0D f = true) :
    let e := vExpand f.ty (vMask c 0x0D f t).data (vReads c 0x0D f t).2.1.data
    vOp c 0x0D f t = withFlight (cursorClear f.vd)
      (vFlight c.sBeat 3 0x0D f.ty .vector (f.vd.setWidth 4) e.1 e.2 e.2 true false
        (vPoison 0x0D (vReads c 0x0D f t).2 (vMask c 0x0D f t)))
      (vReady c 0x0D f t) := by
  intro e
  rw [vOp, if_neg (by simp [hlegal])]
  dsimp only
  rw [if_neg (by decide), if_neg (by decide), vResult_eq_withFlight, withFlight_setCursor]
  simp only [e, vPoison, vMask, vReady, vReads]
  rfl

end

/-- A V-slot command whose operation writes all of vd meets `VAdds`. -/
theorem vAdds_of_fullWrite {cmd : Instr} {s : State} {a : TileAt} {op lat : Nat} {f : VF} {v : W128} {p : Bool}
    (hrun : tileRuns s a = true) (hcmd : exec cmd s = slotCmd s a (vWord op f) fun c t => vOp c op f t)
    (h : vOp (ctx s a) op f (vTile s a op f) = fullWrite (ctx s a) op f (vTile s a op f) v)
    (hlat : vLatency op f.ty.toNat = lat) (hp : vPoison op (vRead s a op f) (getM (tile s a) (f.c.setWidth 2)) = p) :
    VAdds cmd s a op f (cursorClear f.vd)
      (vFlight (beatNo s a) lat op f.ty .vector (f.vd.setWidth 4) v ones128 0 false false p) := by
  subst hlat hp
  rw [fullWrite, vReads_snd, vMask_eq_getM, getM_inBeat] at h
  exact vAdds_of_vOp hrun hcmd h

/-! ## Lanewise operations (R147, R170, R171) -/

theorem vLatency_arithmetic {op : Nat} (hop : op ≤ 4 ∨ op = 7) (ty : BitVec 3) : vLatency op ty.toNat = if ty = 0 then 4 else 5 := by
  simp [vLatency, hop, ← BitVec.toNat_inj]

/-- R171: infinities of one sign give +0, and all else is a subtraction. -/
theorem vLane_vssub (ty : BitVec 3) (a b c : Nat) :
    vLane 7 ty a b c = if (∃ n, decodeLane ty a = .inf n) ∧ decodeLane ty a = decodeLane ty b then 0
      else roundLane ty (addNum (decodeLane ty a) (negNum (decodeLane ty b))) := by
  simp only [vLane]
  cases decodeLane ty a <;> cases decodeLane ty b <;> simp

/-- The opcode of a lanewise row gives the row's latency and the row's lanes, and its command is the V-slot's operation. -/
structure LaneRowAgrees (e : (TileAt → VF → Instr) × Nat × Nat × Nat × (BitVec 3 → Nat → Nat → Nat → Nat)) : Prop where
  lanewise : e.2.1 ≤ 7
  reads : vReadsB e.2.1 = true
  runs : ∀ a f s, exec (e.1 a f) s = slotCmd s a (vWord e.2.1 f) fun c t => vOp c e.2.1 f t
  latency : ∀ ty : BitVec 3, vLatency e.2.1 ty.toNat = if ty = 0 then e.2.2.1 else e.2.2.2.1
  lanes : ∀ ty x y z, vLane e.2.1 ty x y z = e.2.2.2.2 ty x y z

theorem laneRows_agree : ∀ e ∈ laneRows, LaneRowAgrees e := by
  simp only [laneRows, List.forall_mem_cons, List.not_mem_nil, false_imp_iff, implies_true, and_true]
  exact ⟨⟨by decide, rfl, fun _ _ _ => rfl, vLatency_arithmetic (by decide), fun _ _ _ _ => rfl⟩,
    ⟨by decide, rfl, fun _ _ _ => rfl, vLatency_arithmetic (by decide), fun _ _ _ _ => rfl⟩,
    ⟨by decide, rfl, fun _ _ _ => rfl, vLatency_arithmetic (by decide), fun _ _ _ _ => rfl⟩,
    ⟨by decide, rfl, fun _ _ _ => rfl, vLatency_arithmetic (by decide), fun _ _ _ _ => rfl⟩,
    ⟨by decide, rfl, fun _ _ _ => rfl, by decide, fun _ _ _ _ => rfl⟩,
    ⟨by decide, rfl, fun _ _ _ => rfl, by decide, fun _ _ _ _ => rfl⟩,
    ⟨by decide, rfl, fun _ _ _ => rfl, vLatency_arithmetic (by decide), vLane_vssub⟩⟩

theorem vRead_c_unread {s : State} {a : TileAt} {op : Nat} {f : VF} (hop : op ≠ 4) : (vRead s a op f).2.2 = {} :=
  congrArg (fun r : Tile × Pz 128 × List (BitVec 3 × Pz 128) => r.2.1) (if_neg hop)

theorem vPoison_lanewise {s : State} {a : TileAt} {op : Nat} {f : VF} {k : Pz 16} (hop : op ≤ 7) (hb : vReadsB op = true) :
    let r := vRead s a op f
    vPoison op r k = (r.1.poison || r.2.1.poison || r.2.2.poison) := by
  intro r
  have hmask : vMasked op = false := by simp [vMasked]; omega
  have hc : (op == 4 && r.2.2.poison) = r.2.2.poison := by
    by_cases h4 : op = 4
    · simp [h4]
    · simp [r, vRead_c_unread h4]
  simp [vPoison, hmask, hb, hc]

/-- A row of the lanewise operations meets its statement. -/
theorem LaneRowAgrees.adds {e} (he : LaneRowAgrees e) {s : State} {a : TileAt} {f : VF} (hrun : tileRuns s a = true)
    (hlegal : vLegal (tile s a) e.2.1 f = true) :
    let r := vRead s a e.2.1 f
    let w := laneWidth f.ty
    let b := vBroadcast f.ty f.bcast r.2.1.data
    VAdds (e.1 a f) s a e.2.1 f (cursorClear f.vd)
      (vFlight (beatNo s a) (if f.ty = 0 then e.2.2.1 else e.2.2.2.1) e.2.1 f.ty .vector (f.vd.setWidth 4)
        (mapLanes f.ty fun k => e.2.2.2.2 f.ty (lane w k r.1.data) (lane w k b) (lane w k r.2.2.data)) ones128 0 false false
        (r.1.poison || r.2.1.poison || r.2.2.poison)) := by
  intro r w b
  have hop := vOp_lanewise (c := ctx s a) (vTile_legal hlegal) he.lanewise
  simp only [he.lanes, vReads_snd] at hop
  refine vAdds_of_fullWrite hrun (he.runs a f s) ?_ ?_ ?_
  · exact hop
  · exact he.latency f.ty
  · exact vPoison_lanewise he.lanewise he.reads

/-! ## Comparisons (R170) -/

/-- The opcode of a comparison's row compares by the row's relation, and its command is the V-slot's operation. -/
structure CompareRowAgrees (e : (TileAt → VF → Instr) × Nat × (FpNum → FpNum → Bool)) : Prop where
  compares : vIsCompare e.2.1 = true
  runs : ∀ a f s, exec (e.1 a f) s = slotCmd s a (vWord e.2.1 f) fun c t => vOp c e.2.1 f t
  relation : ∀ ty x y, vCompare e.2.1 ty x y = e.2.2 (decodeLane ty x) (decodeLane ty y)

theorem compareRows_agree : ∀ e ∈ compareRows, CompareRowAgrees e := by
  simp only [compareRows, List.forall_mem_cons, List.not_mem_nil, false_imp_iff, implies_true, and_true]
  refine ⟨⟨?_, ?_, ?_⟩, ⟨?_, ?_, ?_⟩, ⟨?_, ?_, ?_⟩⟩
  all_goals intros; rfl

theorem vLatency_compare {op ty : Nat} (hop : vIsCompare op = true) : vLatency op ty = 2 := by
  obtain rfl | rfl | rfl := vIsCompare_iff.mp hop <;> rfl

theorem vPoison_compare {op : Nat} {r : Pz 128 × Pz 128 × Pz 128} {k : Pz 16} (hop : vIsCompare op = true) :
    vPoison op r k = (r.1.poison || r.2.1.poison) := by
  obtain rfl | rfl | rfl := vIsCompare_iff.mp hop <;> simp [vPoison, vReadsB, vMasked]

theorem maskReg_eq (vd : BitVec 3) : (vd.setWidth 2).setWidth 4 = BitVec.ofNat 4 (vd.toNat % 4) := by
  revert vd; decide

/-- A row of the comparisons meets its statement. -/
theorem CompareRowAgrees.adds {e} (he : CompareRowAgrees e) {s : State} {a : TileAt} {f : VF} (hrun : tileRuns s a = true)
    (hlegal : vLegal (tile s a) e.2.1 f = true) :
    let r := vRead s a e.2.1 f
    let w := laneWidth f.ty
    let b := vBroadcast f.ty f.bcast r.2.1.data
    VAdds (e.1 a f) s a e.2.1 f id
      (vFlight (beatNo s a) 2 e.2.1 f.ty .mask (BitVec.ofNat 4 (f.vd.toNat % 4))
        (BitVec.ofNat 128 (bitSum (laneCount f.ty) fun k => e.2.2 (decodeLane f.ty (lane w k r.1.data)) (decodeLane f.ty (lane w k b))))
        0xFFFF 0 false false (r.1.poison || r.2.1.poison)) := by
  intro r w b
  have hop := vOp_compare (c := ctx s a) (vTile_legal hlegal) he.compares
  simp only [he.relation, vReads_snd, vLatency_compare he.compares, vPoison_compare he.compares, maskReg_eq] at hop
  exact vAdds_of_vOp hrun (he.runs a f s) hop

/-- Settles O11: each row's operation answers its value, lane by lane, or the sum of its mask's bits. -/
theorem vectorLanesAndComparisons : Obligations.VectorLanesAndComparisons := by
  unfold Obligations.VectorLanesAndComparisons
  refine ⟨fun s a f hrun e he hlegal => (laneRows_agree e he).adds hrun hlegal, fun s a f hrun e he hlegal => ?_⟩
  refine ⟨_, fun k hk => ?_, (compareRows_agree e he).adds hrun hlegal⟩
  rw [BitVec.getLsbD_ofNat, testBit_bitSum]
  simp [hk]

/-! ## Lanes of a register (R40) -/

/-- The number whose lanes of width `w` are `ls`. -/
def packLanes (w : Nat) (ls : List Nat) : Nat := ls.foldr (fun c acc => c % 2 ^ w + acc * 2 ^ w) 0

theorem packLanes_cons (w c : Nat) (ls : List Nat) : packLanes w (c :: ls) = c % 2 ^ w + packLanes w ls * 2 ^ w := rfl

theorem packLanes_lt (w : Nat) (ls : List Nat) : packLanes w ls < 2 ^ (ls.length * w) := by
  induction ls with
  | nil => simp [packLanes]
  | cons c ls ih =>
    have hc : c % 2 ^ w < 2 ^ w := Nat.mod_lt _ (Nat.two_pow_pos w)
    rw [packLanes_cons, List.length_cons, Nat.succ_mul, Nat.pow_add]
    calc c % 2 ^ w + packLanes w ls * 2 ^ w < (packLanes w ls + 1) * 2 ^ w := by rw [Nat.succ_mul]; omega
      _ ≤ 2 ^ (ls.length * w) * 2 ^ w := Nat.mul_le_mul_right _ ih

theorem element_packLanes (w : Nat) (ls : List Nat) (k : Nat) (hk : k < ls.length) :
    element w k (packLanes w ls) = ls[k] % 2 ^ w := by
  induction ls generalizing k with
  | nil => simp at hk
  | cons c ls ih =>
    rw [packLanes_cons]
    cases k with
    | zero => simp [element]
    | succ k =>
      have hrest : (c % 2 ^ w + packLanes w ls * 2 ^ w) >>> w = packLanes w ls := by
        have hpos := Nat.two_pow_pos w
        rw [Nat.shiftRight_eq_div_pow, Nat.add_mul_div_right _ _ hpos, Nat.div_eq_of_lt (Nat.mod_lt _ hpos), Nat.zero_add]
      rw [element, Nat.mul_succ, Nat.add_comm (w * k), Nat.shiftRight_add, hrest]
      exact ih k _

theorem laneCount_mul_laneWidth : ∀ ty, laneCount ty * laneWidth ty = 128 := by decide

theorem lane_mapLanes (ty : BitVec 3) (g : Nat → Nat) {i : Nat} (hi : i < laneCount ty) :
    lane (laneWidth ty) i (mapLanes ty g) = g i % 2 ^ laneWidth ty := by
  have hlt := packLanes_lt (laneWidth ty) ((List.range (laneCount ty)).map g)
  have hget := element_packLanes (laneWidth ty) ((List.range (laneCount ty)).map g) i (by simpa using hi)
  rw [List.length_map, List.length_range, laneCount_mul_laneWidth] at hlt
  rw [List.getElem_map, List.getElem_range] at hget
  rw [lane, mapLanes, ofLanes, BitVec.toNat_ofNat, ← packLanes, Nat.mod_eq_of_lt hlt, hget]

theorem lane_lt (w k : Nat) (v : W128) : lane w k v < 2 ^ w := Nat.mod_lt _ (Nat.two_pow_pos w)

theorem bitAt_toNat (i : Nat) (m : W16) : bitAt i m.toNat = m.getLsbD i := by
  rw [bitAt, BitVec.getLsbD, Nat.testBit_eq_decide_div_mod_eq]
  rfl

/-! ## Selects, reductions and the move (R172, R175) -/

theorem activeLanes_eq_filter (n : Nat) (m : W16) : activeLanes n m = (List.range n).filter fun k => m.getLsbD k := by
  simp only [activeLanes, bitAt_toNat]

/-- An operation that writes all of vd from whole operands meets `VAdds`. -/
theorem vAdds_of_whole {cmd : Instr} {s : State} {a : TileAt} {op lat : Nat} {f : VF} {v : W128} {p : Bool}
    (hrun : tileRuns s a = true) (hop : op ∈ [0x0B, 0x0C, 0x18, 0x19, 0x20])
    (hcmd : exec cmd s = slotCmd s a (vWord op f) fun c t => vOp c op f t) (hlat : vLatency op f.ty.toNat = lat)
    (hv : wholeValue op f (vRead s a op f) (getM (tile s a) (f.c.setWidth 2)).data = v)
    (hp : vPoison op (vRead s a op f) (getM (tile s a) (f.c.setWidth 2)) = p) (hlegal : vLegal (tile s a) op f = true) :
    VAdds cmd s a op f (cursorClear f.vd)
      (vFlight (beatNo s a) lat op f.ty .vector (f.vd.setWidth 4) v ones128 0 false false p) := by
  have h := vOp_whole (c := ctx s a) (vTile_legal hlegal) hop
  rw [vReads_snd, vMask_eq_getM, getM_inBeat, hv] at h
  exact vAdds_of_fullWrite hrun hcmd h hlat hp

/-- R175: an expanded lane is written where its mask's bit is set, with the next lane of a. -/
theorem vExpand_lanes (ty : BitVec 3) (m : W16) (x : W128) {i : Nat} (hi : i < laneCount ty) :
    let w := laneWidth ty
    lane w i (vExpand ty m x).2 = (if m.getLsbD i then 2 ^ w - 1 else 0)
    ∧ lane w i (vExpand ty m x).1 = (if m.getLsbD i then lane w ((List.range i).filter fun j => m.getLsbD j).length x else 0) := by
  have hpos := Nat.two_pow_pos (laneWidth ty)
  simp only [vExpand, lane_mapLanes ty _ hi, bitAt_toNat, activeLanes_eq_filter]
  split
  · exact ⟨Nat.mod_eq_of_lt (by omega), Nat.mod_eq_of_lt (lane_lt ..)⟩
  · exact ⟨Nat.zero_mod _, Nat.zero_mod _⟩

theorem vexpand_adds {s : State} {a : TileAt} {f : VF} (hrun : tileRuns s a = true) (hlegal : vLegal (tile s a) 0x0D f = true) :
    let x := (vRead s a 0x0D f).1
    let k := getM (tile s a) (f.c.setWidth 2)
    let e := vExpand f.ty k.data x.data
    VAdds (.vexpand a f) s a 0x0D f (cursorClear f.vd)
      (vFlight (beatNo s a) 3 0x0D f.ty .vector (f.vd.setWidth 4) e.1 e.2 e.2 true false (x.poison || k.poison)) := by
  intro x k e
  have hp : vPoison 0x0D (vRead s a 0x0D f) k = (x.poison || k.poison) := by simp [vPoison, vReadsB, vMasked, x]
  have h := vOp_vexpand (c := ctx s a) (vTile_legal hlegal)
  rw [vReads_snd, vMask_eq_getM, getM_inBeat, hp] at h
  exact vAdds_of_vOp hrun rfl h

/-- Settles O12: each operation but `vexpand` writes all of vd; what `vexpand` writes is read back lane by lane. -/
theorem vectorSelectsAndReductions : Obligations.VectorSelectsAndReductions := by
  unfold Obligations.VectorSelectsAndReductions
  intro s a f hrun w k adds
  refine ⟨?_, ?_, ?_, ?_, ?_, fun hlegal => ?_⟩
  · exact vAdds_of_whole hrun (by decide) rfl rfl (by simp only [wholeValue, bitAt_toNat]; rfl) (by simp [vPoison, vReadsB, vMasked, k])
  · exact vAdds_of_whole hrun (by decide) rfl rfl (by simp only [wholeValue, vCompress, activeLanes_eq_filter]; rfl)
      (by simp [vPoison, vReadsB, vMasked, k])
  · exact vAdds_of_whole hrun (by decide) rfl rfl rfl (by simp [vPoison, vReadsB, vMasked])
  · exact vAdds_of_whole hrun (by decide) rfl rfl rfl (by simp [vPoison, vReadsB, vMasked])
  · exact vAdds_of_whole hrun (by decide) rfl rfl rfl (by simp [vPoison, vReadsB, vMasked])
  · exact ⟨_, _, vexpand_adds hrun hlegal, fun i hi => vExpand_lanes f.ty k.data _ hi⟩

end Sys2Proof.Proofs
end

section
/-! What issuing and parking do to a thread's shuttle, and what a recording and a wait at a knot leave alone (08 R221 to R225, R234). -/

namespace Sys2Proof.Proofs
open Sys2Proof.Machine Sys2Proof.Stmt Sys2Proof.Laws

/-! ## Byte strings -/

theorem length_leBytes (n v : Nat) : (leBytes n v).length = n := by
  induction n generalizing v with
  | zero => rfl
  | succ n ih => simp [leBytes, ih]

theorem ofLe_leBytes (n v : Nat) : ofLe (leBytes n v) = v % 256 ^ n := by
  induction n generalizing v with
  | zero => simp [leBytes, ofLe, Nat.mod_one]
  | succ n ih =>
    have hstep : v % 256 ^ (n + 1) = v % 256 + 256 * (v / 256 % 256 ^ n) := by rw [Nat.pow_succ', Nat.mod_mul]
    rw [leBytes, ofLe, ih, BitVec.toNat_ofNat, hstep]

theorem bytesAt_leBytes (n v : Nat) : bytesAt (leBytes n v) 0 n = leBytes n v := by
  simp [bytesAt, length_leBytes, List.take_of_length_le]

theorem ofLe_wordBytes (w : W64) : n64 (ofLe (bytesAt (leBytes 8 w.toNat) 0 8)) = w := by
  have hlt : w.toNat < 256 ^ 8 := w.isLt
  rw [bytesAt_leBytes, ofLe_leBytes, Nat.mod_eq_of_lt hlt, n64, BitVec.ofNat_toNat, BitVec.setWidth_eq]

/-! ## A recording is kept in HBM and leaves the shuttles (R444) -/

theorem readSector_shuttles (g off : Nat) (o : SectorOutcome) (s : State) : (readSector g off o s).2.2.shuttles = s.shuttles := by
  unfold readSector
  dsimp only
  split
  · rfl
  · split <;> rfl

theorem writeSector_shuttles (g off : Nat) (d : Bytes) (p whole : Bool) (s : State) :
    (writeSector g off d p whole s).shuttles = s.shuttles := by
  cases whole
  · exact readSector_shuttles g off .clean s
  · rfl

theorem writeHbm_shuttles (g off : Nat) (d : Bytes) (p : Bool) (s : State) : (writeHbm g off d p s).shuttles = s.shuttles := by
  unfold writeHbm
  exact List.foldlRecOn (motive := fun u : State => u.shuttles = s.shuttles) _ _ rfl fun u hu i _ => (writeSector_shuttles ..).trans hu

theorem recordEntry_shuttles (p : Nat) (e : RecEntry) (s : State) : (recordEntry p e s).shuttles = s.shuttles := by
  unfold recordEntry
  dsimp only
  split
  · rfl
  · split
    · rfl
    · exact writeHbm_shuttles ..

theorem recordOwn_shuttles (n k : Nat) (u : BitVec 12) (s : State) : (recordOwn n k u s).shuttles = s.shuttles := by
  unfold recordOwn recordNow
  split
  · rfl
  · exact recordEntry_shuttles ..

@[simp] theorem getShuttle_recordOwn (n k : Nat) (u : BitVec 12) (s : State) (m : Nat) :
    getShuttle (recordOwn n k u s) m = getShuttle s m := by
  rw [getShuttle, recordOwn_shuttles, getShuttle]

/-! ## A thread that leaves the running state (R224) -/

theorem nextThread_ready {t k : Nat} {h : Shuttle} (hk : nextThread t h = some k) : (getThread h k).state = 0 := by
  simpa using List.find?_some hk

/-- The shuttle after thread `t` left its running state is the one with the thread's new state, whatever the core does then. -/
theorem leaveRunning_cases (t : Nat) (st : BitVec 3) (w : Waiting) (h : Shuttle) :
    let v := putThread h t { getThread h t with state := st, waiting := w }
    leaveRunning t st w h = v ∨ leaveRunning t st w h = { v with running := none }
      ∨ ∃ k, (getThread v k).state = 0 ∧ leaveRunning t st w h = selectThread k { v with running := none } := by
  intro v
  unfold leaveRunning
  dsimp only
  split
  · split
    next k hk => exact .inr (.inr ⟨k, nextThread_ready hk, rfl⟩)
    next => exact .inr (.inl rfl)
  · exact .inl rfl

theorem leaveRunning_frame (t : Nat) (st : BitVec 3) (w : Waiting) (h : Shuttle) :
    (leaveRunning t st w h).mem = h.mem ∧ (leaveRunning t st w h).knots = h.knots ∧ (leaveRunning t st w h).tags = h.tags := by
  obtain e | e | ⟨k, -, e⟩ := leaveRunning_cases t st w h <;> rw [e] <;> exact ⟨rfl, rfl, rfl⟩

theorem knots_leaveRunning (t : Nat) (st : BitVec 3) (w : Waiting) (h : Shuttle) : (leaveRunning t st w h).knots = h.knots := by
  obtain ⟨-, hknots, -⟩ := leaveRunning_frame t st w h
  exact hknots

/-- A thread that does not become ready is not the one that the core selects. -/
theorem getThread_leaveRunning {t : Nat} {st : BitVec 3} (hst : st ≠ 0) (w : Waiting) (h : Shuttle) :
    getThread (leaveRunning t st w h) t = { getThread h t with state := st, waiting := w } := by
  obtain e | e | ⟨k, hk, e⟩ := leaveRunning_cases t st w h
  · rw [e, getThread_putThread]
  · rw [e]; exact getThread_putThread ..
  · have hne : t ≠ k := by
      rintro rfl
      rw [getThread_putThread] at hk
      exact hst hk
    rw [e, selectThread, getThread_putThread_ne _ _ _ _ hne]
    exact getThread_putThread ..

/-! ## Issuing (R221) -/

theorem issue_issuing {s : State} {n t : Nat} (h : Issuing s n t) (f : State → State) : issue n t f s = .next (f (passPc n t s)) := by
  obtain ⟨hstand, hstate, hrunning⟩ := h
  exact issue_running s n t f hstand hstate hrunning

section
variable (n t : Nat) (s : State)

@[simp] theorem thread_passPc : thread (passPc n t s) n t = { thread s n t with pc := (thread s n t).pc + 4 } := by
  simp [thread, passPc]
@[simp] theorem xOf_passPc (r : BitVec 5) : xOf (passPc n t s) n t r = xReg (thread s n t) r := by
  have h := thread_passPc n t s
  rw [thread] at h
  rw [xOf, h]
  rfl
@[simp] theorem knots_passPc : (getShuttle (passPc n t s) n).knots = (getShuttle s n).knots := by simp [passPc]
@[simp] theorem mem_passPc : (getShuttle (passPc n t s) n).mem = (getShuttle s n).mem := by simp [passPc]
@[simp] theorem freeTag_passPc : freeTag (getShuttle (passPc n t s) n) = freeTag (getShuttle s n) := by simp [passPc, freeTag]
@[simp] theorem placeOf_passPc (a : W64) (z : Nat) : placeOf (passPc n t s) n a z = placeOf s n a z := placeOf_congr _ _ _ _ _ rfl rfl
@[simp] theorem fuses_passPc : (passPc n t s).fuses = s.fuses := rfl
@[simp] theorem ownerOfShuttle_passPc (m : Nat) : ownerOfShuttle (passPc n t s) m = ownerOfShuttle s m := rfl
@[simp] theorem replaying_passPc (p : Nat) : replaying (passPc n t s) p = replaying s p := rfl
@[simp] theorem reaches_passPc (p : Nat) (r : Region) : reaches (passPc n t s) p r = reaches s p r := by cases r <;> rfl
theorem region_passPc (o : Nat) : classify (passPc n t s).fuses.variant o = classify s.fuses.variant o := by rw [fuses_passPc]
theorem homeAt_passPc (o : Nat) : homeAt (passPc n t s) o = homeOf (classify s.fuses.variant o) := by rw [homeAt, region_passPc]
theorem operandPlace_passPc (r : BitVec 5) (z : Nat) :
    placeOf (passPc n t s) n (xOf (passPc n t s) n t r) z = placeOf s n (xReg (thread s n t) r) z := by
  rw [xOf_passPc, placeOf_passPc]

end

section
variable (n t : Nat) (r : BitVec 5) (v : W64) (s : State)

@[simp] theorem thread_writeX : thread (writeX n t r v s) n t = setX r v false (thread s n t) := by simp [thread, writeX]
@[simp] theorem knots_writeX : (getShuttle (writeX n t r v s) n).knots = (getShuttle s n).knots := by simp [writeX]
@[simp] theorem mem_writeX : (getShuttle (writeX n t r v s) n).mem = (getShuttle s n).mem := by simp [writeX]

end

/-! ## Threads that wait at the shuttle's own knots (R234) -/

theorem wakeShuttle_of_noOwnWaits {s : State} {n : Nat} (h : NoOwnWaits s n) : wakeShuttle n s = s := by
  unfold wakeShuttle
  refine List.foldlRecOn (motive := (· = s)) _ _ rfl fun u hu t ht => ?_
  subst hu
  have hwait : ownWait (getThread (getShuttle u n) t) = none := h ⟨t, List.mem_range.mp ht⟩
  simp only [hwait]

theorem noOwnWaits_of_threads {s u : State} {n : Nat} (h : NoOwnWaits s n) (hu : (getShuttle u n).threads = (getShuttle s n).threads) :
    NoOwnWaits u n := by
  intro k
  rw [thread, getThread, hu]
  exact h k

theorem noOwnWaits_updThread {s : State} {n : Nat} (h : NoOwnWaits s n) (t : Nat) {f : Thread → Thread}
    (hf : ∀ th, ownWait (f th) = ownWait th) : NoOwnWaits (updThread s n t f) n := by
  intro k
  rw [thread, getShuttle_updThread]
  by_cases hk : k.val = t
  · rw [← hk, getThread_putThread, hf]
    exact h k
  · rw [getThread_putThread_ne _ _ _ _ hk]
    exact h k

theorem noOwnWaits_passPc {s : State} {n : Nat} (h : NoOwnWaits s n) (t : Nat) : NoOwnWaits (passPc n t s) n :=
  noOwnWaits_updThread h t fun _ => rfl

theorem ownWait_setX (r : BitVec 5) (v : W64) (p : Bool) (th : Thread) : ownWait (setX r v p th) = ownWait th := by
  unfold setX
  split <;> rfl

end Sys2Proof.Proofs
end

section
/-! Operations of a thread on a knot of its own shuttle and on another knot of the partition, and the settlement of O37 (08 R227, R230 to
R237). -/

namespace Sys2Proof.Proofs
open Sys2Proof.Machine Sys2Proof.Stmt Sys2Proof.Laws

/-! ## What an operation does to a knot (R230, R231) -/

section
variable {n : Nat} {u : KnotUser} {k : Knot}

theorem ownedBy_userOf {m t : Nat} : ownedBy (userOf m t) k = true ↔ LockedByThread m t k := by
  simp [ownedBy, userOf, LockedByThread, and_assoc]

theorem knotApply_broken {op : Nat} (hk : k.state = 2) : knotApply op n u k = (k, kBroken) := by
  unfold knotApply
  exact if_pos hk

theorem knotApply_signal_fits (hk : k.state ≠ 2) (hn : k.count.toNat + n ≤ 65535) :
    knotApply 1 n u k = ({ k with count := BitVec.ofNat 16 (k.count.toNat + n) }, kDone) := by
  rw [knotApply, if_neg hk]
  simp [Nat.not_lt.mpr hn, BitVec.ofNat_add]

theorem knotApply_signal_saturates (hk : k.state ≠ 2) (hn : 65535 < k.count.toNat + n) :
    knotApply 1 n u k = ({ k with count := 65535 }, kOverflow) := by
  rw [knotApply, if_neg hk]
  simp [hn]

theorem knotApply_wait_met (hk : k.state ≠ 2) (hn : n ≤ k.count.toNat) : knotApply 2 n u k = (k, kDone) := by
  rw [knotApply, if_neg hk]
  simp [hn]

theorem knotApply_wait_notMet (hk : k.state ≠ 2) (hn : k.count.toNat < n) : knotApply 2 n u k = (k, kNotMet) := by
  rw [knotApply, if_neg hk]
  simp [Nat.not_le.mpr hn]

theorem knotApply_take_fits (hk : k.state ≠ 2) (hn : n ≤ k.count.toNat) :
    knotApply 3 n u k = ({ k with count := BitVec.ofNat 16 (k.count.toNat - n), gen := k.gen + 1 }, kDone) := by
  have hsub : k.count - BitVec.ofNat 16 n = BitVec.ofNat 16 (k.count.toNat - n) := by
    have := k.count.isLt
    bv_omega
  rw [knotApply, if_neg hk]
  simp [Nat.not_lt.mpr hn, hsub]

theorem knotApply_take_short (hk : k.state ≠ 2) (hn : k.count.toNat < n) :
    knotApply 3 n u k = ({ k with count := 0 }, kUnderflow) := by
  rw [knotApply, if_neg hk]
  simp [hn]

theorem knotApply_lock_free (hk : k.state = 0) {m t : Nat} :
    knotApply 4 n (userOf m t) k
      = ({ k with state := 1, ownerTile := false, owner := BitVec.ofNat 12 (16 * m + t), ownerX := 0, ownerY := 0 }, kDone) := by
  simp [knotApply, ownedBy, userOf, hk]

theorem knotApply_lock_held {m t : Nat} (hl : LockedByThread m t k) : knotApply 4 n (userOf m t) k = (k, kOverflow) := by
  have hk : k.state ≠ 2 := by rw [hl.1]; decide
  rw [knotApply, if_neg hk]
  simp [ownedBy_userOf.mpr hl]

theorem knotApply_lock_notMet {m t : Nat} (hk : k.state = 1) (hl : ¬ LockedByThread m t k) :
    knotApply 4 n (userOf m t) k = (k, kNotMet) := by
  simp [knotApply, hk, ownedBy_userOf, hl]

theorem knotApply_unlock_held {m t : Nat} (hl : LockedByThread m t k) :
    knotApply 5 n (userOf m t) k
      = ({ k with state := 0, ownerTile := false, owner := 0, ownerX := 0, ownerY := 0, gen := k.gen + 1 }, kDone) := by
  have hk : k.state ≠ 2 := by rw [hl.1]; decide
  rw [knotApply, if_neg hk]
  simp [ownedBy_userOf.mpr hl]

theorem knotApply_unlock_notHeld {m t : Nat} (hk : k.state ≠ 2) (hl : ¬ LockedByThread m t k) :
    knotApply 5 n (userOf m t) k = (k, kUnderflow) := by
  rw [knotApply, if_neg hk]
  simp [ownedBy_userOf, hl]

/-- R231: how far a waiter's generation lies behind the knot's, by wrapping subtraction. -/
theorem generationsBehind (g : W16) (hn : n < 65536) : (g - BitVec.ofNat 16 n).toNat = (g.toNat + 65536 - n) % 65536 := by
  have := g.isLt
  bv_omega

theorem knotApply_waitg (hk : k.state ≠ 2) (hn : n < 65536) :
    knotApply 6 n u k = (k, if (k.gen.toNat + 65536 - n) % 65536 < 32768 then kDone else kNotMet) := by
  unfold knotApply
  rw [if_neg hk, ← generationsBehind _ hn]
  rfl

theorem knotApply_waitg_met (hk : k.state ≠ 2) (hn : n < 65536) (hg : (k.gen.toNat + 65536 - n) % 65536 < 32768) :
    knotApply 6 n u k = (k, kDone) := by
  rw [knotApply_waitg hk hn, if_pos hg]

theorem knotApply_waitg_notMet (hk : k.state ≠ 2) (hn : n < 65536) (hg : 32768 ≤ (k.gen.toNat + 65536 - n) % 65536) :
    knotApply 6 n u k = (k, kNotMet) := by
  rw [knotApply_waitg hk hn, if_neg (Nat.not_lt.mpr hg)]

/-- R234: an operation met at once counts no waiter. -/
theorem countWaiter_met_first (op : Nat) {r : KnotReply} (hr : r.met = true) : countWaiter op u true r k = k := by
  simp [countWaiter, hr]

/-- R234: the first not-met reply of a thread's wait counts a waiter, up to 255. -/
theorem countWaiter_notMet_first {op : Nat} (hop : op = 2 ∨ op = 4 ∨ op = 6) {m t : Nat} :
    countWaiter op (userOf m t) true kNotMet k = { k with waiters := if k.waiters = 255 then 255 else k.waiters + 1 } := by
  have hwaits : (op == 2 || op == 4 || op == 6) = true := by simpa [or_assoc] using hop
  have hcount : countWaiter op (userOf m t) true kNotMet k = if k.waiters = 255 then k else { k with waiters := k.waiters + 1 } := by
    simp [countWaiter, hwaits, userOf, kNotMet]
  rw [hcount]
  split
  next h255 => rw [← h255]
  next => rfl

end

/-! ## An operation on a knot of the own shuttle (R230 to R235) -/

section
variable {s : State} {n t i op v : Nat} {rd : BitVec 5} {k : Knot} {r : KnotReply}

/-- A met operation leaves its knot and its status; no thread of the shuttle wakes, since none waits. -/
theorem getShuttle_ownKnot_met (hw : NoOwnWaits s n)
    (hk : knotApply op v (userOf n t) (sGet {} i (getShuttle s n).knots) = (k, r)) (hr : r.met = true) :
    let h := { getShuttle s n with knots := sPut {} i k (getShuttle s n).knots }
    getShuttle (ownKnot n t i rd op v s) n = putThread h t (setX rd (r.status.setWidth 64) false (getThread h t)) := by
  intro h
  have hquiet : NoOwnWaits (writeStatus n t rd r.status.toNat (putShuttle s n h)) n :=
    noOwnWaits_updThread (noOwnWaits_of_threads hw (by simp [h])) t (ownWait_setX _ _ _)
  have hstatus : n64 r.status.toNat = r.status.setWidth 64 := BitVec.ofNat_toNat ..
  simp only [ownKnot, shuttleKnot, hk, countWaiter_met_first op hr, hr, if_true]
  rw [wakeShuttle_of_noOwnWaits]
  · split <;> simp [writeStatus, writeX, hstatus, h]
  · split
    · exact hquiet
    · exact noOwnWaits_of_threads hquiet (by rw [getShuttle_recordOwn])

theorem getShuttle_ownKnot_notMet (hop : op = 2 ∨ op = 4 ∨ op = 6)
    (hk : knotApply op v (userOf n t) (sGet {} i (getShuttle s n).knots) = (k, kNotMet)) :
    getShuttle (ownKnot n t i rd op v s) n =
      leaveRunning t 4 (.ownKnot rd (BitVec.ofNat 8 i) (BitVec.ofNat 3 op) (BitVec.ofNat 16 v) (userOf n t).thread)
        { getShuttle s n with
          knots := sPut {} i { k with waiters := if k.waiters = 255 then 255 else k.waiters + 1 } (getShuttle s n).knots } := by
  simp only [ownKnot, shuttleKnot, hk, countWaiter_notMet_first hop]
  simp [kNotMet]

end

/-- What an instruction leaves in the shuttle when it sets knot `i` and answers a status. -/
theorem ownKnotDone_of_getShuttle {c : Instr} {s u : State} {n t i : Nat} {rd : BitVec 5} {k : Knot} {status : W64} (hrun : Runs c s u)
    (hu : let h := { getShuttle (passPc n t s) n with knots := sPut {} i k (getShuttle (passPc n t s) n).knots }
      getShuttle u n = putThread h t (setX rd status false (getThread h t))) : OwnKnotDone c s n t i rd k status := by
  refine ⟨u, hrun, ?_, ?_, fun j hj => ?_, ?_⟩
  · rw [hu]; exact sGet_sPut_self ..
  · rw [thread, hu, getThread_putThread, ← thread_passPc]; rfl
  · rw [hu, putThread_knots, sGet_sPut_ne _ _ _ _ _ hj, knots_passPc]
  · rw [hu, putThread_mem, mem_passPc]

/-- The thread's address names knot `i` of its own shuttle, within its partition; no thread waits there, and no replay orders operations. -/
structure NamesOwnKnot (s : State) (f : ShOp) (o i : Nat) : Prop where
  issuing : Issuing s f.s.val f.t.val
  noWaits : NoOwnWaits s f.s.val
  live    : replaying s (ownerOfShuttle s f.s.val) = false
  place   : placeOf s f.s.val (xReg (thread s f.s.val f.t.val) f.rs1) 1 = .package o
  home    : homeOf (classify s.fuses.variant o) = .shuttleKnot f.s.val i
  reach   : reaches s (ownerOfShuttle s f.s.val) (classify s.fuses.variant o) = true

theorem not_isUnmapped_of_home {r : Region} (h : homeOf r ≠ .other) : isUnmapped r = false := by
  cases r
  case unmapped => exact absurd rfl h
  all_goals rfl

/-- A knot of a shuttle within reach is read, or set and its waiters tried again. -/
theorem knotAccess_shuttleKnot {u : State} {n m t op o v i : Nat} {r : Region} (hu : classify u.fuses.variant o = r)
    (hmapped : isUnmapped r = false) (hreach : reaches u (ownerOfShuttle u n) r = true) (hhome : homeOf r = .shuttleKnot m i) :
    knotAccess n t op o v u = if op = 0 then (stDone, leBytes 8 (knotWord (sGet {} i (getShuttle u m).knots)).toNat, u)
      else (stDone, [], wakeShuttle m
        (putHomeKnot (.shuttleKnot m i) { count := BitVec.ofNat 16 v, gen := BitVec.ofNat 16 (v / 2 ^ 16) } u)) := by
  unfold knotAccess
  simp only [hu, hmapped, hreach, hhome, Bool.false_eq_true, Bool.not_true, if_false]
  rfl

/-- `sh.kread` and `sh.kinit` on a knot of the own shuttle are answered at once (R227). -/
theorem knotAccessThread_own {u : State} {f : ShOp} {op o i : Nat} {d : Bytes} {w : State}
    (hplace : placeOf u f.s.val (xOf u f.s.val f.t.val f.rs1) 1 = .package o) (hhome : homeAt u o = .shuttleKnot f.s.val i)
    (hacc : knotAccess f.s.val f.t.val op o ((xOf u f.s.val f.t.val f.rs2).toNat % 2 ^ 32) u = (stDone, d, w)) :
    knotAccessThread f op u =
      if op = 7 then writeStatus f.s.val f.t.val f.rd stDone w
      else writeX f.s.val f.t.val f.rd (n64 (ofLe (bytesAt d 0 8))) w := by
  unfold knotAccessThread
  extract_lets n t a v kind answerNow
  -- The kernel must not compute where an offset lies: what names the home, and what the access does there, stay unknown functions.
  obtain ⟨home, hH⟩ : ∃ home, homeAt u = home := ⟨_, rfl⟩
  obtain ⟨access, hK⟩ : ∃ access, knotAccess n t op = access := ⟨_, rfl⟩
  rw [hH] at hhome
  have hacc : access o v u = (stDone, d, w) := by rw [← hK]; exact hacc
  rw [hplace, hH, hK]
  simp only [hhome, hacc, n, t, answerNow, if_true]

/-- `sh.kinit` takes count and generation from the operand's low 32 bits (R227). -/
theorem initialKnot_eq (w : Nat) :
    ({ count := BitVec.ofNat 16 (w % 2 ^ 32), gen := BitVec.ofNat 16 (w % 2 ^ 32 / 2 ^ 16) } : Knot)
      = { count := BitVec.ofNat 16 w, gen := BitVec.ofNat 16 (w / 65536) } := by
  have hcount : BitVec.ofNat 16 (w % 2 ^ 32) = BitVec.ofNat 16 w := by
    apply BitVec.eq_of_toNat_eq
    simp only [BitVec.toNat_ofNat]
    omega
  have hgen : BitVec.ofNat 16 (w % 2 ^ 32 / 2 ^ 16) = BitVec.ofNat 16 (w / 65536) := by
    apply BitVec.eq_of_toNat_eq
    simp only [BitVec.toNat_ofNat]
    omega
  rw [hcount, hgen]

theorem runs_shKinit {s : State} {f : ShOp} (h : Issuing s f.s.val f.t.val) :
    Runs (.shKinit f) s (if (thread s f.s.val f.t.val).machine = true then knotAccessThread f 7 (passPc f.s.val f.t.val s)
      else raiseIllegal f.s.val f.t.val (passPc f.s.val f.t.val s)) := by
  have hmachine : (thread (passPc f.s.val f.t.val s) f.s.val f.t.val).machine = (thread s f.s.val f.t.val).machine := by rw [thread_passPc]
  rw [← hmachine]
  exact issue_issuing h fun u =>
    if (thread u f.s.val f.t.val).machine = true then knotAccessThread f 7 u else raiseIllegal f.s.val f.t.val u

namespace NamesOwnKnot
variable {s : State} {f : ShOp} {o i : Nat}

theorem mapped (h : NamesOwnKnot s f o i) : isUnmapped (classify s.fuses.variant o) = false :=
  not_isUnmapped_of_home (by rw [h.home]; exact Home.noConfusion)

theorem knotThread_eq (h : NamesOwnKnot s f o i) (op : Nat) :
    knotThread f op (passPc f.s.val f.t.val s)
      = ownKnot f.s.val f.t.val i f.rd op ((xReg (thread s f.s.val f.t.val) f.rs2).toNat % 65536) (passPc f.s.val f.t.val s) := by
  simp [knotThread, h.place, h.mapped, h.reach, h.home, h.live]

/-- An operation that the knot meets, or answers with an error, leaves the knot and its status. -/
theorem done (h : NamesOwnKnot s f o i) {c : Instr} {op : Nat} {k : Knot} {r : KnotReply} {status : W64}
    (hc : exec c s = issue f.s.val f.t.val (knotThread f op) s)
    (hk : knotApply op ((xReg (thread s f.s.val f.t.val) f.rs2).toNat % 65536) (userOf f.s.val f.t.val)
      (sGet {} i (getShuttle s f.s.val).knots) = (k, r))
    (hr : r.met = true) (hst : r.status.setWidth 64 = status) : OwnKnotDone c s f.s.val f.t.val i f.rd k status := by
  subst hst
  have hrun := hc.trans (issue_issuing h.issuing _)
  rw [h.knotThread_eq] at hrun
  rw [← knots_passPc] at hk
  exact ownKnotDone_of_getShuttle hrun (getShuttle_ownKnot_met (noOwnWaits_passPc h.noWaits _) hk hr)

/-- A wait or a lock that the knot does not meet leaves its thread waiting there. -/
theorem waits (h : NamesOwnKnot s f o i) {c : Instr} {op : Nat} (hc : exec c s = issue f.s.val f.t.val (knotThread f op) s)
    (hop : op = 2 ∨ op = 4 ∨ op = 6)
    (hk : knotApply op ((xReg (thread s f.s.val f.t.val) f.rs2).toNat % 65536) (userOf f.s.val f.t.val)
      (sGet {} i (getShuttle s f.s.val).knots) = (sGet {} i (getShuttle s f.s.val).knots, kNotMet)) :
    OwnKnotWaits c s f.s.val f.t.val i := by
  have hrun := hc.trans (issue_issuing h.issuing _)
  rw [h.knotThread_eq] at hrun
  rw [← knots_passPc _ f.t.val] at hk
  have hu := getShuttle_ownKnot_notMet (rd := f.rd) hop hk
  refine ⟨_, hrun, ?_, ?_, ?_⟩
  · rw [hu, knots_leaveRunning, sGet_sPut_self, knots_passPc]
  · rw [thread, hu, getThread_leaveRunning (by decide)]
  · rw [thread, hu, getThread_leaveRunning (by decide)]
    have hx : (thread (passPc f.s.val f.t.val s) f.s.val f.t.val).x = (thread s f.s.val f.t.val).x := by rw [thread_passPc]
    exact hx

theorem knotAccess_eq (h : NamesOwnKnot s f o i) (t op v : Nat) :
    knotAccess f.s.val t op o v (passPc f.s.val f.t.val s) =
      if op = 0 then (stDone, leBytes 8 (knotWord (sGet {} i (getShuttle (passPc f.s.val f.t.val s) f.s.val).knots)).toNat, passPc f.s.val f.t.val s)
      else (stDone, [], wakeShuttle f.s.val (putHomeKnot (.shuttleKnot f.s.val i)
        { count := BitVec.ofNat 16 v, gen := BitVec.ofNat 16 (v / 2 ^ 16) } (passPc f.s.val f.t.val s))) :=
  knotAccess_shuttleKnot (region_passPc ..) h.mapped ((reaches_passPc ..).trans h.reach) h.home

theorem read (h : NamesOwnKnot s f o i) :
    let k := sGet {} i (getShuttle s f.s.val).knots
    OwnKnotDone (.shKread f) s f.s.val f.t.val i f.rd k (knotWord k) := by
  intro k
  have hread : knotAccessThread f 0 (passPc f.s.val f.t.val s) = writeX f.s.val f.t.val f.rd (knotWord k) (passPc f.s.val f.t.val s) := by
    rw [knotAccessThread_own ((operandPlace_passPc ..).trans h.place) ((homeAt_passPc ..).trans h.home) (h.knotAccess_eq ..),
      if_neg (by decide), knots_passPc, ofLe_wordBytes]
  have hrun : Runs (.shKread f) s _ := issue_issuing h.issuing _
  rw [hread] at hrun
  refine ⟨_, hrun, ?_, ?_, fun j _ => ?_, ?_⟩ <;> simp [k]

theorem init (h : NamesOwnKnot s f o i) (hm : (thread s f.s.val f.t.val).machine = true) :
    let w := (xReg (thread s f.s.val f.t.val) f.rs2).toNat
    OwnKnotDone (.shKinit f) s f.s.val f.t.val i f.rd { count := BitVec.ofNat 16 w, gen := BitVec.ofNat 16 (w / 65536) } 0 := by
  intro w
  have hinit : knotAccessThread f 7 (passPc f.s.val f.t.val s) = writeStatus f.s.val f.t.val f.rd 0
      (putHomeKnot (.shuttleKnot f.s.val i) { count := BitVec.ofNat 16 w, gen := BitVec.ofNat 16 (w / 65536) } (passPc f.s.val f.t.val s)) := by
    rw [knotAccessThread_own ((operandPlace_passPc ..).trans h.place) ((homeAt_passPc ..).trans h.home) (h.knotAccess_eq ..),
      if_pos rfl, xOf_passPc, initialKnot_eq,
      wakeShuttle_of_noOwnWaits (noOwnWaits_of_threads (noOwnWaits_passPc h.noWaits f.t.val) (by simp [putHomeKnot]))]
    rfl
  have hrun := runs_shKinit h.issuing
  rw [if_pos hm, hinit] at hrun
  exact ownKnotDone_of_getShuttle hrun (by simp [writeStatus, writeX, putHomeKnot, n64])

end NamesOwnKnot

/-! ## `sh.kinit` in user mode (R226, R227) -/

theorem raiseIllegal_user {u : State} {n t : Nat} (hm : (thread u n t).machine = false) :
    ∃ x, thread (raiseIllegal n t u) n t = trapThread 2 x ((thread u n t).pc - 4) (thread u n t)
      ∧ (getShuttle (raiseIllegal n t u) n).knots = (getShuttle u n).knots := by
  have hraise : raiseIllegal n t u = updThread { u with freeCount := u.freeCount + 1 } n t
      (trapThread 2 (Config.csrFree u.freeCount csrMtval) ((thread u n t).pc - 4)) := by
    simp only [raiseIllegal, raiseThread, raiseAt, takeFree]
    exact if_neg (by rw [Bool.not_eq_true]; exact hm)
  refine ⟨Config.csrFree u.freeCount csrMtval, ?_, ?_⟩
  · rw [hraise, thread, getShuttle_updThread, getThread_putThread]; rfl
  · rw [hraise, getShuttle_updThread]; rfl

theorem kinit_user {s : State} {f : ShOp} (hissue : Issuing s f.s.val f.t.val) (hm : (thread s f.s.val f.t.val).machine = false) :
    ∃ u x, Runs (.shKinit f) s u
      ∧ thread u f.s.val f.t.val = trapThread 2 x (thread s f.s.val f.t.val).pc (thread s f.s.val f.t.val)
      ∧ (getShuttle u f.s.val).knots = (getShuttle s f.s.val).knots := by
  have hmachine : (thread (passPc f.s.val f.t.val s) f.s.val f.t.val).machine = false := by rw [thread_passPc]; exact hm
  have hrun := runs_shKinit hissue
  rw [if_neg (by rw [Bool.not_eq_true]; exact hm)] at hrun
  obtain ⟨x, hthread, hknots⟩ := raiseIllegal_user hmachine
  refine ⟨_, x, hrun, ?_, hknots.trans (knots_passPc ..)⟩
  rw [hthread, thread_passPc, BitVec.add_sub_cancel]
  rfl

/-! ## An operation on another knot of the partition (R225, R230) -/

/-- The tag holds a request of the thread. -/
def RequestOf (t : Nat) (kind : ReqKind) (a : W64) (tag : Tag) : Prop :=
  tag.valid = true ∧ tag.thread = BitVec.ofNat 4 t ∧ tag.kind = some kind ∧ tag.address = a

theorem withTag_free {u : State} {n g : Nat} (hg : freeTag (getShuttle u n) = some g) (t : Nat) (kind : ReqKind) (size : Nat) (a : W64)
    (send : Nat → State → State) :
    ∃ tag, RequestOf t kind a tag ∧ withTag n t kind size a send u = send g (putTag n g tag u) := by
  simp only [withTag, hg]
  exact ⟨_, ⟨rfl, rfl, rfl, rfl⟩, rfl⟩

/-- A thread that parks after a request took a tag waits for it; its shuttle's memory and knots are as they were. -/
theorem parked_park {s w : State} {n t g : Nat} {wait : BitVec 3} {kind : ReqKind} {a : W64} {tag : Tag} (hwait : wait ≠ 0)
    (htag : RequestOf t kind a tag)
    (hw : getShuttle w n = { getShuttle (passPc n t s) n with tags := sPut {} g tag (getShuttle (passPc n t s) n).tags }) :
    Parked s (park n t g wait w) n t g wait kind a 4 := by
  have hpark : getShuttle (park n t g wait w) n = leaveRunning t wait (.tag (BitVec.ofNat 6 g) none) (getShuttle w n) :=
    getShuttle_updShuttle ..
  obtain ⟨hmem, hknots, htags⟩ := leaveRunning_frame t wait (.tag (BitVec.ofNat 6 g) none) (getShuttle w n)
  have hget : getTag (park n t g wait w) n g = tag := by rw [getTag, hpark, htags, hw]; exact sGet_sPut_self ..
  have hthread : thread (park n t g wait w) n t
      = { thread (passPc n t s) n t with state := wait, waiting := .tag (BitVec.ofNat 6 g) none } := by
    rw [thread, hpark, getThread_leaveRunning hwait, hw]; rfl
  obtain ⟨hvalid, howner, hkind, haddress⟩ := htag
  simp only [Parked, hget, hthread, hpark, hmem, hknots, hvalid, howner, hkind, haddress, thread_passPc, true_and]
  rw [hw]
  exact ⟨mem_passPc .., knots_passPc ..⟩

/-- The thread's address names a knot of a tile or of another shuttle, within its partition, and tag `g` is free. -/
structure NamesOtherKnot (s : State) (f : ShOp) (o g : Nat) : Prop where
  issuing : Issuing s f.s.val f.t.val
  tag     : freeTag (getShuttle s f.s.val) = some g
  place   : placeOf s f.s.val (xReg (thread s f.s.val f.t.val) f.rs1) 1 = .package o
  far     : (∃ x y k, homeOf (classify s.fuses.variant o) = .tileKnot x y k)
    ∨ ∃ m k, m ≠ f.s.val ∧ homeOf (classify s.fuses.variant o) = .shuttleKnot m k
  reach   : reaches s (ownerOfShuttle s f.s.val) (classify s.fuses.variant o) = true
  mapped  : isUnmapped (classify s.fuses.variant o) = false

/-- A wait or a lock may be sent again; its first message says so (R237). -/
def mayWait (op : Nat) : Bool := decide (op = 2 ∨ op = 4 ∨ op = 6)

/-- The message of a thread's operation, with the tag that takes its reply. -/
def knotMessage (n t o op v g : Nat) : NetMsg :=
  .knotOp (.thread (BitVec.ofNat 8 n) (BitVec.ofNat 6 g)) (userOf n t) (n64 o) (BitVec.ofNat 3 op) (BitVec.ofNat 16 v) (mayWait op)

/-- A message enters the network. -/
def enterNet (m : NetMsg) (s : State) : State := { s with net := s.net ++ [m] }

theorem getShuttle_enterNet (m : NetMsg) (s : State) (n : Nat) : getShuttle (enterNet m s) n = getShuttle s n := rfl

/-- The operand of a request for a knot's word stands in its tag. -/
def setTagData (n g : Nat) (d : Bytes) (s : State) : State := putTag n g { getTag s n g with data := d } s

theorem setTagData_putTag (n g : Nat) (d : Bytes) (tag : Tag) (s : State) :
    setTagData n g d (putTag n g tag s) = putTag n g { tag with data := d } s := by
  simp [setTagData, putTag, getTag, updShuttle]

/-- The six knot operations and their numbers (R230). -/
def knotRows : List ((ShOp → Instr) × Nat) := [(.shKsig, 1), (.shKwait, 2), (.shKtake, 3), (.shKlock, 4), (.shKunlock, 5), (.shKwaitg, 6)]

theorem knotRows_issue : ∀ e ∈ knotRows, ∀ f s, exec (e.1 f) s = issue f.s.val f.t.val (knotThread f e.2) s := by
  simp only [knotRows, List.forall_mem_cons, List.not_mem_nil, false_imp_iff, implies_true, and_true]
  exact ⟨fun _ _ => rfl, fun _ _ => rfl, fun _ _ => rfl, fun _ _ => rfl, fun _ _ => rfl, fun _ _ => rfl⟩

/-- `sh.kread` and `sh.kinit` on another knot go by a request (R227). -/
theorem knotAccessThread_other {u : State} {f : ShOp} {op o : Nat}
    (hplace : placeOf u f.s.val (xOf u f.s.val f.t.val f.rs1) 1 = .package o)
    (hfar : (∃ x y k, homeAt u o = .tileKnot x y k) ∨ ∃ m k, m ≠ f.s.val ∧ homeAt u o = .shuttleKnot m k) :
    knotAccessThread f op u = knotAccessThread.request f.s.val f.t.val (.knot f.rd (BitVec.ofNat 3 op) 0 false) (xOf u f.s.val f.t.val f.rs1)
      ((xOf u f.s.val f.t.val f.rs2).toNat % 2 ^ 32) u := by
  unfold knotAccessThread
  extract_lets n t a v kind answerNow
  -- As in `knotAccessThread_own`.
  obtain ⟨home, hH⟩ : ∃ home, homeAt u = home := ⟨_, rfl⟩
  obtain ⟨access, hK⟩ : ∃ access, knotAccess n t op = access := ⟨_, rfl⟩
  rw [hH] at hfar
  rw [hplace, hH, hK]
  obtain ⟨x, y, k, hhome⟩ | ⟨m, k, hne, hhome⟩ := hfar
  · simp only [hhome]
    rfl
  · simp only [hhome, n, hne, if_false]
    rfl

namespace NamesOtherKnot
variable {s : State} {f : ShOp} {o g : Nat}

theorem tag_passPc (h : NamesOtherKnot s f o g) : freeTag (getShuttle (passPc f.s.val f.t.val s) f.s.val) = some g :=
  (freeTag_passPc ..).trans h.tag

/-- R237: the operation's message names its knot, who asks, its operand and whether it may wait. -/
theorem send (h : NamesOtherKnot s f o g) {c : Instr} {op : Nat} (hc : exec c s = issue f.s.val f.t.val (knotThread f op) s) :
    let v := (xReg (thread s f.s.val f.t.val) f.rs2).toNat % 65536
    ∃ u, Runs c s u
      ∧ Parked s u f.s.val f.t.val g 4 (.knot f.rd (BitVec.ofNat 3 op) (BitVec.ofNat 16 v) (mayWait op)) (xReg (thread s f.s.val f.t.val) f.rs1) 4
      ∧ u.net = s.net ++ [knotMessage f.s.val f.t.val o op v g] := by
  intro v
  have hsend : knotThread f op (passPc f.s.val f.t.val s) = withTag f.s.val f.t.val
      (.knot f.rd (BitVec.ofNat 3 op) (BitVec.ofNat 16 v) (mayWait op)) 0 (xReg (thread s f.s.val f.t.val) f.rs1)
      (fun g u => park f.s.val f.t.val g 4 (enterNet (knotMessage f.s.val f.t.val o op v g) u)) (passPc f.s.val f.t.val s) := by
    obtain ⟨x, y, k, hhome⟩ | ⟨m, k, hne, hhome⟩ := h.far
    · simp [knotThread, h.place, h.mapped, h.reach, hhome, v, mayWait, Bool.or_assoc, enterNet, knotMessage]
    · simp [knotThread, h.place, h.mapped, h.reach, hhome, hne, v, mayWait, Bool.or_assoc, enterNet, knotMessage]
  obtain ⟨tag, htag, hwith⟩ := withTag_free h.tag_passPc f.t.val (.knot f.rd (BitVec.ofNat 3 op) (BitVec.ofNat 16 v) (mayWait op)) 0
    (xReg (thread s f.s.val f.t.val) f.rs1) fun g u => park f.s.val f.t.val g 4 (enterNet (knotMessage f.s.val f.t.val o op v g) u)
  have hrun := hc.trans (issue_issuing h.issuing _)
  rw [hsend, hwith] at hrun
  exact ⟨_, hrun, parked_park (by decide) htag ((getShuttle_enterNet ..).trans (getShuttle_updShuttle ..)), rfl⟩

theorem read (h : NamesOtherKnot s f o g) :
    ∃ u, Runs (.shKread f) s u
      ∧ Parked s u f.s.val f.t.val g 4 (.knot f.rd 0 0 false) (xReg (thread s f.s.val f.t.val) f.rs1) 4 := by
  have hread : knotAccessThread f 0 (passPc f.s.val f.t.val s) = withTag f.s.val f.t.val (.knot f.rd 0 0 false) 3
      (xReg (thread s f.s.val f.t.val) f.rs1)
      (fun g u => park f.s.val f.t.val g 4 (setTagData f.s.val g
        (leBytes 4 ((xReg (thread s f.s.val f.t.val) f.rs2).toNat % 2 ^ 32)) u)) (passPc f.s.val f.t.val s) := by
    rw [knotAccessThread_other ((operandPlace_passPc ..).trans h.place) (by rw [homeAt_passPc]; exact h.far), xOf_passPc, xOf_passPc]
    rfl
  obtain ⟨tag, htag, hwith⟩ := withTag_free h.tag_passPc f.t.val (.knot f.rd 0 0 false) 3 (xReg (thread s f.s.val f.t.val) f.rs1)
    fun g u => park f.s.val f.t.val g 4 (setTagData f.s.val g (leBytes 4 ((xReg (thread s f.s.val f.t.val) f.rs2).toNat % 2 ^ 32)) u)
  have hrun : Runs (.shKread f) s _ := issue_issuing h.issuing _
  rw [hread, hwith, setTagData_putTag] at hrun
  have htag' : RequestOf f.t.val (.knot f.rd 0 0 false) (xReg (thread s f.s.val f.t.val) f.rs1)
    { tag with data := leBytes 4 ((xReg (thread s f.s.val f.t.val) f.rs2).toNat % 2 ^ 32) } := htag
  exact ⟨_, hrun, parked_park (by decide) htag' (getShuttle_updShuttle ..)⟩

end NamesOtherKnot

/-- Settles O37: an operation on a knot of the own shuttle by its equation at the knot, one on another knot by the message and the tag that
it takes. The order of operations, the trap in user mode and the step of `pc` are the model's choices of logs 69, 67 and 27. -/
theorem shuttleKnotInstructions : Obligations.ShuttleKnotInstructions := by
  unfold Obligations.ShuttleKnotInstructions
  refine ⟨fun s f o i => ?_, fun s f o g => ?_⟩
  · intro n t k v hissue hwaits hlive hplace hhome hreach
    have h : NamesOwnKnot s f o i := ⟨hissue, hwaits, hlive, hplace, hhome, hreach⟩
    have hv : v < 65536 := Nat.mod_lt _ (by decide)
    refine ⟨fun hk => ⟨fun hn => ?_, fun hn => ?_, fun hn => ⟨?_, ?_⟩, fun hn => ⟨?_, ?_⟩, fun hg => ?_, fun hg => ?_, fun h0 => ?_,
      fun hl => ⟨?_, ?_⟩, fun h1 hl => ?_, fun hl => ?_⟩, fun hk => ?_, h.read, fun hm => h.init hm⟩
    · exact h.done rfl (knotApply_signal_fits hk hn) rfl rfl
    · exact h.done rfl (knotApply_signal_saturates hk hn) rfl rfl
    · exact h.done rfl (knotApply_wait_met hk hn) rfl rfl
    · exact h.done rfl (knotApply_take_fits hk hn) rfl rfl
    · exact h.waits rfl (.inl rfl) (knotApply_wait_notMet hk hn)
    · exact h.done rfl (knotApply_take_short hk hn) rfl rfl
    · exact h.done rfl (knotApply_waitg_met hk hv hg) rfl rfl
    · exact h.waits rfl (.inr (.inr rfl)) (knotApply_waitg_notMet hk hv hg)
    · exact h.done rfl (knotApply_lock_free h0) rfl rfl
    · exact h.done rfl (knotApply_lock_held hl) rfl rfl
    · exact h.done rfl (knotApply_unlock_held hl) rfl rfl
    · exact h.waits rfl (.inr (.inl rfl)) (knotApply_lock_notMet h1 hl)
    · exact h.done rfl (knotApply_unlock_notHeld hk hl) rfl rfl
    · have broken {c : Instr} {op : Nat} (hc : exec c s = issue n t (knotThread f op) s) : OwnKnotDone c s n t i f.rd k 0x11 :=
        h.done hc (knotApply_broken hk) rfl rfl
      simp only [List.forall_mem_cons, List.not_mem_nil, false_imp_iff, implies_true, and_true]
      exact ⟨broken rfl, broken rfl, broken rfl, broken rfl, broken rfl, broken rfl⟩
  · intro n t v far hissue
    refine ⟨fun htag hplace hfar hreach hmapped => ?_, kinit_user hissue⟩
    have h : NamesOtherKnot s f o g := ⟨hissue, htag, hplace, hfar, hreach, hmapped⟩
    exact ⟨fun e he => h.send (knotRows_issue e he f s), h.read⟩

end Sys2Proof.Proofs
end

section
/-! Writes of stored entries by a role: the answer and the audit record, the copy for the flash, and what a recording may change
(15 R406, R413, 14 R388, 16 R444, R449). -/

namespace Sys2Proof.Proofs
open Sys2Proof.Machine Sys2Proof.Stmt Sys2Proof.Laws

/-! ## What an entry of a recording may change (R444 to R446) -/

/-- `u` is `s` but for HBM and its counts, the partitions and the events: all that appending to a recording may touch. -/
def RecordEffect (s u : State) : Prop := ∃ h d ps e, u = { s with hbm := h, hbmDies := d, parts := ps, events := e }

theorem RecordEffect.refl (s : State) : RecordEffect s s := ⟨_, _, _, _, rfl⟩

theorem RecordEffect.trans {s t u : State} (h : RecordEffect s t) (k : RecordEffect t u) : RecordEffect s u := by
  obtain ⟨_, _, _, _, rfl⟩ := h
  obtain ⟨h', d', ps', e', rfl⟩ := k
  exact ⟨h', d', ps', e', rfl⟩

theorem RecordEffect.links_eq {s u : State} (h : RecordEffect s u) : u.links = s.links := by
  obtain ⟨_, _, _, _, rfl⟩ := h
  rfl

theorem RecordEffect.routes_eq {s u : State} (h : RecordEffect s u) : u.routes = s.routes := by
  obtain ⟨_, _, _, _, rfl⟩ := h
  rfl

theorem recordEffect_readSector (g off : Nat) (o : SectorOutcome) (s : State) : RecordEffect s (readSector g off o s).2.2 := by
  unfold readSector
  dsimp only
  split
  · exact .refl s
  · split <;> exact ⟨_, _, _, _, rfl⟩

theorem recordEffect_writeSector (g off : Nat) (d : Bytes) (p whole : Bool) (s : State) :
    RecordEffect s (writeSector g off d p whole s) := by
  cases whole
  · exact (recordEffect_readSector g off .clean s).trans ⟨_, _, _, _, rfl⟩
  · exact ⟨_, _, _, _, rfl⟩

theorem recordEffect_writeHbm (g off : Nat) (d : Bytes) (p : Bool) (s : State) : RecordEffect s (writeHbm g off d p s) := by
  unfold writeHbm
  exact List.foldlRecOn (motive := RecordEffect s) _ _ (.refl s) fun _ hu _ _ => hu.trans (recordEffect_writeSector ..)

theorem recordEffect_recordEntry (p : Nat) (e : RecEntry) (s : State) : RecordEffect s (recordEntry p e s) := by
  unfold recordEntry
  dsimp only
  split
  · exact .refl s
  · split
    · exact ⟨_, _, _, _, rfl⟩
    · exact (recordEffect_writeHbm ..).trans ⟨_, _, _, _, rfl⟩

theorem recordEffect_stampInput (p target : Nat) (d : Bytes) (s : State) : RecordEffect s (stampInput p target d s) := by
  unfold stampInput recordNow
  split
  · exact .refl s
  · exact recordEffect_recordEntry ..

/-! ## A stored write (R406, R449) -/

/-- What a stored write leaves of the state `v` that its effect answered: the links and the routes, and where the entry is not
stamped the partitions too. -/
structure StoredFrom (base : Nat) (v u : State) : Prop where
  links_eq : u.links = v.links
  routes_eq : u.routes = v.routes
  parts_eq : stampedEntry base = false → u.parts = v.parts

theorem StoredFrom.getPort_eq {base : Nat} {v u : State} (h : StoredFrom base v u) (k : Nat) : getPort u k = getPort v k := by
  rw [getPort, h.links_eq, getPort]

theorem StoredFrom.getRoute_eq {base : Nat} {v u : State} (h : StoredFrom base v u) (p : Nat) : getRoute u p = getRoute v p := by
  rw [getRoute, h.routes_eq, getRoute]

/-- A stored write that its effect accepts is accepted; its flash copy and its stamp leave what `StoredFrom` names. -/
theorem writeWith_stored {ix base k sub : Nat} {old d : Bytes} {effect : State → Nat × State} {s v : State} (h : effect s = (0, v)) :
    ∃ u, writeWith ix base k sub true old d effect s = (0, u) ∧ StoredFrom base v u := by
  have hstored : storedEffect ix sub old effect s = (0, queueFlash (.settings (BitVec.ofNat 16 ix) (BitVec.ofNat 8 sub) old) v) := by
    simp only [storedEffect, h, if_true]
  simp only [writeWith, hstored, if_true]
  split
  next hstamp =>
    have hstamped : stampedEntry base ≠ false := by
      intro hno
      simp [hno] at hstamp
    have heffect := recordEffect_stampInput ((entryOwner s base k).getD 0) (stampTarget ix sub) d
      (queueFlash (.settings (BitVec.ofNat 16 ix) (BitVec.ofNat 8 sub) old) v)
    exact ⟨_, rfl, heffect.links_eq, heffect.routes_eq, fun hno => absurd hno hstamped⟩
  next => exact ⟨_, rfl, rfl, rfl, fun _ => rfl⟩

/-! ## A request of a role that passes its checks (R388, R413) -/

/-- A request that passes its checks and whose effect accepts it is answered 0 and recorded as a write. -/
theorem audited_roleRequest {c : Instr} {s u : State} {r : Role} {ix base k sub : Nat} {data : Bytes} {effect : State → Nat × State}
    (hc : exec c s = .next (roleRequest none r ix sub data effect s)) (hpass : Passes s r ix sub data) (hix : indexOf ix = some (base, k))
    (hkind : isCommandEntry base sub = false) (heffect : effect s = (0, u)) : Audited c s r ix sub 1 data u := by
  obtain ⟨haccess, hfree, b, e, hb, he, htype⟩ := hpass
  obtain rfl : b = (base, k) := Option.some.inj (hb.symm.trans hix)
  rw [Audited, Runs, hc]
  simp only [roleRequest, haccess, hfree, hix, he, htype, heffect, hkind, if_true, Bool.and_false, Bool.false_and, Bool.false_eq_true, if_false,
    Option.map_some, Option.getD_some]
  rfl

/-- A write by its names of a stored entry that no command stands for. -/
theorem audited_writeByName {c : Instr} {s v : State} {r : Role} {ix base k sub : Nat} {d : Bytes} {e : Entry}
    (hc : exec c s = .next (writeByName none r ix sub d s)) (hpass : Passes s r ix sub d) (hix : indexOf ix = some (base, k))
    (he : entryOf base sub = some e) (hcls : e.cls = 3) (hanchor : base ≠ 0x1200) (hkind : isCommandEntry base sub = false)
    (hwrite : storedWrite base k sub d s = (0, v)) : ∃ u, Audited c s r ix sub 1 d u ∧ StoredFrom base v u := by
  obtain ⟨u, hu, hframe⟩ := writeWith_stored (ix := ix) (k := k) (old := (entryValue r base k sub s).1) (d := d)
    (effect := storedWrite base k sub d) hwrite
  refine ⟨u, audited_roleRequest hc hpass hix hkind ?_, hframe⟩
  simp only [hix, he, entryWrite, hcls, hanchor, decide_true, decide_false, Bool.false_and, Bool.not_false, Bool.and_true, if_true]
  exact hu

end Sys2Proof.Proofs
end

section
/-! Link control and the entries of links, and the settlement of O2 and O45 (11 R289, R290, R295 to R299, R304). -/

namespace Sys2Proof.Proofs
open Sys2Proof.Machine Sys2Proof.Stmt Sys2Proof.Laws

/-- Settles O2: the idle step is the model's choice for a moment without a command (logs 1 and 6). -/
theorem emptyQueueIdles : Obligations.EmptyQueueIdles := by
  unfold Obligations.EmptyQueueIdles
  intro s h
  simp only [step, h, idle]

/-! ## Ports and routes by number -/

@[simp] theorem getPort_putPort (s : State) (k : Nat) (q : Port) : getPort (putPort s k q) k = q := sGet_sPut_self ..

@[simp] theorem putPort_putPort (s : State) (k : Nat) (q r : Port) : putPort (putPort s k q) k r = putPort s k r := by
  simp only [putPort, sPut_sPut]

@[simp] theorem getPort_updPort (s : State) (k : Nat) (f : Port → Port) : getPort (updPort s k f) k = f (getPort s k) :=
  getPort_putPort ..

@[simp] theorem shuttles_updPort (s : State) (k : Nat) (f : Port → Port) : (updPort s k f).shuttles = s.shuttles := rfl
@[simp] theorem tiles_updPort (s : State) (k : Nat) (f : Port → Port) : (updPort s k f).tiles = s.tiles := rfl

@[simp] theorem updPort_putPort (s : State) (k : Nat) (q : Port) (f : Port → Port) : updPort (putPort s k q) k f = putPort s k (f q) := by
  simp only [updPort, getPort_putPort, putPort_putPort]

@[simp] theorem getPort_assertEvent (e : Nat) (v : W64) (s : State) (k : Nat) : getPort (assertEvent e v s) k = getPort s k := rfl

@[simp] theorem getRoute_putRoute (s : State) (p : Nat) (r : Route) : getRoute (putRoute s p r) p = r := sGet_sPut_self ..

@[simp] theorem getRoute_updRoute (s : State) (p : Nat) (f : Route → Route) : getRoute (updRoute s p f) p = f (getRoute s p) :=
  getRoute_putRoute ..

/-! ## What following the routes of a partition changes (R304) -/

theorem trackRoutes_eq_routes (p : Nat) (s : State) : ∃ rs, trackRoutes p s = { s with routes := rs } := by
  unfold trackRoutes
  dsimp only
  split <;> exact ⟨_, rfl⟩

@[simp] theorem getPort_trackRoutes (p : Nat) (s : State) (k : Nat) : getPort (trackRoutes p s) k = getPort s k := by
  obtain ⟨rs, h⟩ := trackRoutes_eq_routes p s
  rw [h, getPort, getPort]

@[simp] theorem shuttles_trackRoutes (p : Nat) (s : State) : (trackRoutes p s).shuttles = s.shuttles := by
  obtain ⟨rs, h⟩ := trackRoutes_eq_routes p s
  rw [h]

@[simp] theorem tiles_trackRoutes (p : Nat) (s : State) : (trackRoutes p s).tiles = s.tiles := by
  obtain ⟨rs, h⟩ := trackRoutes_eq_routes p s
  rw [h]

theorem getRoute_trackRoutes (p : Nat) (s : State) : ∃ e, getRoute (trackRoutes p s) p = { getRoute s p with empty := e } := by
  unfold trackRoutes
  dsimp only
  split
  · exact ⟨_, rfl⟩
  · exact ⟨_, getRoute_putRoute ..⟩

@[simp] theorem table_trackRoutes (p : Nat) (s : State) : (getRoute (trackRoutes p s) p).table = (getRoute s p).table := by
  obtain ⟨e, h⟩ := getRoute_trackRoutes p s
  rw [h]

@[simp] theorem unreach_trackRoutes (p : Nat) (s : State) : (getRoute (trackRoutes p s) p).unreach = (getRoute s p).unreach := by
  obtain ⟨e, h⟩ := getRoute_trackRoutes p s
  rw [h]

/-! ## A port that goes down (R291, R296) -/

theorem line_assertEvent (k : Nat) (v : W64) (s : State) : (sGet {} k (assertEvent k v s).events.sources : EvSource).line = true := by
  simp only [assertEvent, sGet_sPut_self]
  split
  next h => exact h
  next => rfl

/-- Port `k` went down for `reason`: counted once, its replay buffer discarded, its event asserted, shuttles and tiles untouched. -/
structure WentDown (s u : State) (k : Nat) (reason : Byte) : Prop where
  state : (getPort u k).state = 3
  downReason : (getPort u k).downReason = reason
  downs : (getPort u k).downs = (getPort s k).downs + 1
  replay : (getPort u k).replay = []
  line : (sGet {} (srcPort k 0) u.events.sources : EvSource).line = true
  shuttles : u.shuttles = s.shuttles
  tiles : u.tiles = s.tiles

theorem wentDown_portDown (k : Nat) (reason : Byte) (s : State) : WentDown s (portDown k reason s) k reason := by
  have hport : getPort (portDown k reason s) k = { getPort s k with
      state := 3, downReason := reason, replay := [], asked := false, retryRun := 0, credits := 0, downs := (getPort s k).downs + 1 } := by
    simp only [portDown, getPort_assertEvent, getPort_updPort, leaveUp, getPort_trackRoutes]
  have hshuttles : (portDown k reason s).shuttles = s.shuttles := by
    simp only [portDown, assertEvent_shuttles, shuttles_updPort, leaveUp, shuttles_trackRoutes]
  have htiles : (portDown k reason s).tiles = s.tiles := by
    simp only [portDown, assertEvent_tiles, tiles_updPort, leaveUp, tiles_trackRoutes]
  exact ⟨by rw [hport], by rw [hport], by rw [hport], by rw [hport], line_assertEvent .., hshuttles, htiles⟩

/-! ## Retry requests (R295, R296) -/

/-- How many consecutive retry requests name `n` once port `q` has taken this one. -/
def retryRunOf (q : Port) (n : BitVec 12) : Nat := if q.retryRun ≠ 0 ∧ q.retryName = n then q.retryRun + 1 else 1

/-- Port `q` with this retry request counted. -/
def retryCounted (q : Port) (n : BitVec 12) : Port :=
  { q with retries := q.retries + 1, retryName := n, retryRun := retryRunOf q n }

theorem ite_retryRun_eq (q : Port) (n : BitVec 12) :
    (if q.retryRun ≠ 0 && q.retryName == n then q.retryRun + 1 else 1) = retryRunOf q n := by
  have hnames : (decide (q.retryRun ≠ 0) && q.retryName == n) = true ↔ q.retryRun ≠ 0 ∧ q.retryName = n := by
    rw [Bool.and_eq_true, decide_eq_true_iff, beq_iff_eq]
  unfold retryRunOf
  by_cases h : q.retryRun ≠ 0 ∧ q.retryName = n
  · rw [if_pos h, if_pos (hnames.mpr h)]
  · rw [if_neg h, if_neg (mt hnames.mp h)]

theorem linkRetry_eq (k : Nat) (n : BitVec 12) (s : State) :
    linkRetry k n s = if 16 ≤ retryRunOf (getPort s k) n then portDown k 5 (putPort s k (retryCounted (getPort s k) n))
      else putPort s k { retryCounted (getPort s k) n with
        wire := (getPort s k).wire ++ ((getPort s k).replay.filter fun p => decide ((p.lseq - n).toNat < 2048)).map .packet } := by
  simp only [linkRetry, ite_retryRun_eq, updPort_putPort, retryCounted]

/-! ## Commands at a port that is up -/

section
variable {s : State} {port : PortNo}

theorem isUp_of_state {k : Nat} (h : (getPort s k).state = 2) : isUp s k = true := beq_iff_eq.mpr h

theorem runs_linkRetryRequest (h : (getPort s port.val).state = 2) (n : BitVec 12) :
    Runs (.linkRetryRequest port n) s (linkRetry port.val n s) :=
  congrArg Host.Outcome.next (if_pos (isUp_of_state h))

theorem runs_linkAck (h : (getPort s port.val).state = 2) (n : BitVec 12) :
    Runs (.linkAck port n) s (updPort s port.val fun q => { q with replay := ackReplay n q.replay }) :=
  congrArg Host.Outcome.next (if_pos (isUp_of_state h))

theorem runs_creditGrant (h : (getPort s port.val).state = 2) (n : Nat) :
    Runs (.creditGrant port n) s (updPort s port.val fun q => { q with credits := min (q.credits + n) 4096 }) :=
  congrArg Host.Outcome.next (if_pos (isUp_of_state h))

theorem runs_lossOfSignal (h : (getPort s port.val).state = 2) : Runs (.lossOfSignal port) s (portDown port.val 4 s) :=
  congrArg Host.Outcome.next (if_pos (by rw [isUp_of_state h, Bool.true_or]))

theorem linkAckDue_iff {q : Port} {now : Nat} : linkAckDue q now = true ↔ q.sinceAck ≠ 0 ∧ q.ackAt + 200 ≤ now := by
  simp only [linkAckDue, Bool.and_eq_true, decide_eq_true_eq]

theorem runs_linkAcknowledgementTimer_due (h : (getPort s port.val).state = 2) (hdue : linkAckDue (getPort s port.val) s.nowNs = true) :
    Runs (.linkAcknowledgementTimer port) s (sendLinkAck port.val s) :=
  congrArg Host.Outcome.next (if_pos (by rw [isUp_of_state h, hdue, Bool.true_and]))

theorem runs_linkAcknowledgementTimer_notDue (hdue : ¬ linkAckDue (getPort s port.val) s.nowNs = true) :
    Runs (.linkAcknowledgementTimer port) s s :=
  congrArg Host.Outcome.next (if_neg (by rw [Bool.and_eq_true]; exact fun h => hdue h.2))

end

/-! ## Chips that can be reached again (R304) -/

/-- Every chip that the entries `es` name can be reached again. -/
def reachAll (p : Nat) (es : Sparse Bool) (s : State) : State := es.foldl (fun s e => chipReachable p (BitVec.ofNat 16 e.1) s) s

theorem table_chipReachable (p : Nat) (c : W16) (s : State) : (getRoute (chipReachable p c s) p).table = (getRoute s p).table := by
  rw [chipReachable, getRoute_updRoute]

theorem unreach_chipReachable (p : Nat) (c : W16) (s : State) :
    (getRoute (chipReachable p c s) p).unreach = sPut false c.toNat false (getRoute s p).unreach := by
  rw [chipReachable, getRoute_updRoute]

theorem table_reachAll (p : Nat) (es : Sparse Bool) (s : State) : (getRoute (reachAll p es s) p).table = (getRoute s p).table :=
  List.foldlRecOn (motive := fun u : State => (getRoute u p).table = (getRoute s p).table) _ _ rfl
    fun _ hu _ _ => (table_chipReachable ..).trans hu

/-- A chip can be reached after a change of chips when it could before or is one of those. -/
theorem unreach_reachAll {p j : Nat} (es : Sparse Bool) (s : State)
    (h : sGet false j (getRoute s p).unreach = false ∨ ∃ e ∈ es, (BitVec.ofNat 16 e.1).toNat = j) :
    sGet false j (getRoute (reachAll p es s) p).unreach = false := by
  induction es generalizing s with
  | nil => simpa [reachAll] using h
  | cons x es ih =>
    refine ih _ ?_
    rw [unreach_chipReachable]
    by_cases hx : j = (BitVec.ofNat 16 x.1).toNat
    · exact .inl (by rw [← hx, sGet_sPut_self])
    · rw [sGet_sPut_ne _ _ _ _ _ hx]
      refine h.imp_right fun ⟨e, he, hj⟩ => ⟨e, ?_, hj⟩
      obtain rfl | he := List.mem_cons.mp he
      · exact absurd hj.symm hx
      · exact he

/-! ## Indices of ports and routes (Table 15-4) -/

theorem indexOf_port : ∀ k : PortNo, indexOf (0x5010 + k.val) = some (0x5010, k.val) := by decide

theorem indexOf_route : ∀ p : PartNo, indexOf (0x5110 + p.val) = if p = 0 then none else some (0x5110, p.val) := by decide

theorem indexOf_route_of_passes {s : State} {r : Role} {p : PartNo} {sub : Nat} {d : Bytes} (h : Passes s r (0x5110 + p.val) sub d) :
    indexOf (0x5110 + p.val) = some (0x5110, p.val) := by
  obtain ⟨-, -, b, -, hb, -⟩ := h
  have hp : p ≠ 0 := by
    rintro rfl
    rw [indexOf_route, if_pos rfl] at hb
    exact nomatch hb
  rw [indexOf_route, if_neg hp]

/-! ## Writes of the entries of links -/

section
variable {s : State} {r : Role}

theorem storedWrite_laneMap {map : Bytes} (h : laneMapLegal s.fuses.variant map = true) :
    storedWrite 0x5000 0 2 map s = (0, { s with links := { s.links with laneMap := putLaneMap map } }) := by
  have hcheck : storedCheck 0x5000 0 2 map s = 0 := if_pos h
  exact if_pos hcheck

/-- R289: the map is the one written; it takes effect at the next start. -/
theorem laneMapWrite_effect {map : Bytes} (hpass : Passes s r 0x5000 2 map) (hlegal : laneMapLegal s.fuses.variant map = true) :
    ∃ u, Audited (.laneMapWrite r map) s r 0x5000 2 1 map u ∧ u.links = { s.links with laneMap := putLaneMap map } ∧ u.routes = s.routes
      ∧ u.parts = s.parts := by
  obtain ⟨u, haudit, hstored⟩ := audited_writeByName (c := .laneMapWrite r map) rfl hpass (by decide) rfl rfl (by decide) rfl
    (storedWrite_laneMap hlegal)
  exact ⟨u, haudit, hstored.links_eq, hstored.routes_eq, hstored.parts_eq rfl⟩

theorem storedWrite_portMode {k : Nat} {m : Byte} (h : m = 0 ∨ (m = 1 ∧ 10 ≤ k ∧ bitAt (k - 10) (ingestMask s.fuses.variant) = true)) :
    storedWrite 0x5010 k 1 [m] s = (0, updPort s k fun q => { q with modeCfg := m }) := by
  have hcheck : storedCheck 0x5010 k 1 [m] s = 0 := by
    obtain rfl | ⟨rfl, hk, hbit⟩ := h
    · rfl
    · simp [storedCheck, ofLe, hk, hbit]
  have hnum : num [m] 8 = m := by simp [num, ofLe]
  calc storedWrite 0x5010 k 1 [m] s = (0, updPort s k fun q => { q with modeCfg := num [m] 8 }) := if_pos hcheck
    _ = _ := by rw [hnum]

/-- R290: the port's mode is the one written; it takes effect at the next start. -/
theorem portModeWrite_effect {port : PortNo} {m : Byte} (hpass : Passes s r (0x5010 + port.val) 1 [m])
    (hm : m = 0 ∨ (m = 1 ∧ 10 ≤ port.val ∧ bitAt (port.val - 10) (ingestMask s.fuses.variant) = true)) :
    ∃ u, Audited (.portModeWrite r port m) s r (0x5010 + port.val) 1 1 [m] u ∧ getPort u port.val = { getPort s port.val with modeCfg := m }
      ∧ u.routes = s.routes := by
  obtain ⟨u, haudit, hstored⟩ := audited_writeByName (c := .portModeWrite r port m) rfl hpass (indexOf_port port) rfl rfl (by decide) rfl
    (storedWrite_portMode hm)
  exact ⟨u, haudit, (hstored.getPort_eq _).trans (getPort_updPort ..), hstored.routes_eq⟩

theorem writeRouteEntry_legal {p chip : Nat} {ports : W16} (hports : ports.toNat < 4096) (hlegal : routesLegal s p (leBytes 2 ports.toNat) = true) :
    writeRouteEntry p chip ports s = (0, trackRoutes p (chipReachable p (BitVec.ofNat 16 chip)
      (updRoute s p fun r => { r with table := sPut 0 chip ports r.table }))) := by
  simp only [writeRouteEntry, hlegal, Nat.not_le.mpr hports, Bool.not_true, Bool.false_eq_true, if_false]

/-- R299, R304: the entry of a chip is the one written, and the chip can be reached again. -/
theorem routeTableWrite_effect {p : PartNo} {chip : BitVec 12} {ports : W16}
    (hpass : Passes s r (0x5110 + p.val) 1 (wordsBytes 4096 (sPut 0 chip.toNat ports (getRoute s p.val).table)))
    (hports : ports.toNat < 4096) (hlegal : routesLegal s p.val (leBytes 2 ports.toNat) = true) :
    ∃ u, Audited (.routeTableWrite r p chip ports) s r (0x5110 + p.val) 1 1
        (wordsBytes 4096 (sPut 0 chip.toNat ports (getRoute s p.val).table)) u
      ∧ (getRoute u p.val).table = sPut 0 chip.toNat ports (getRoute s p.val).table
      ∧ sGet false chip.toNat (getRoute u p.val).unreach = false := by
  obtain ⟨u, hu, hstored⟩ := writeWith_stored (ix := 0x5110 + p.val) (base := 0x5110) (k := p.val) (sub := 1)
    (old := wordsBytes 4096 (getRoute s p.val).table) (d := wordsBytes 4096 (sPut 0 chip.toNat ports (getRoute s p.val).table))
    (writeRouteEntry_legal (chip := chip.toNat) hports hlegal)
  have hchip : (BitVec.ofNat 16 chip.toNat).toNat = chip.toNat := Nat.mod_eq_of_lt (by omega)
  refine ⟨u, audited_roleRequest rfl hpass (indexOf_route_of_passes hpass) rfl hu, ?_, ?_⟩
  · rw [hstored.getRoute_eq, table_trackRoutes, table_chipReachable, getRoute_updRoute]
  · rw [hstored.getRoute_eq, unreach_trackRoutes, unreach_chipReachable, hchip, sGet_sPut_self]

/-- R304: every chip that the value does not keep can be reached again; the route table stays. -/
theorem unreachableChipsWrite_effect {p : PartNo} {b : Bytes} (hpass : Passes s r (0x5110 + p.val) 6 b) :
    ∃ u, Audited (.unreachableChipsWrite r p b) s r (0x5110 + p.val) 6 1 b u
      ∧ (∀ e ∈ (getRoute s p.val).unreach, sGet false e.1 (bytesBits (fixedBytes 512 b)) = false → e.1 < 65536 →
          sGet false e.1 (getRoute u p.val).unreach = false)
      ∧ (getRoute u p.val).table = (getRoute s p.val).table := by
  obtain ⟨u, haudit, hstored⟩ := audited_writeByName (c := .unreachableChipsWrite r p b) rfl hpass (indexOf_route_of_passes hpass) rfl rfl
    (by decide) rfl (v := reachAll p.val ((getRoute s p.val).unreach.filter fun e => !sGet false e.1 (bytesBits (fixedBytes 512 b))) s) rfl
  refine ⟨u, haudit, fun e he hcleared hlt => ?_, ?_⟩
  · rw [hstored.getRoute_eq]
    exact unreach_reachAll _ _ (.inr ⟨e, List.mem_filter.mpr ⟨he, by rw [hcleared]; rfl⟩, Nat.mod_eq_of_lt hlt⟩)
  · rw [hstored.getRoute_eq, table_reachAll]

end

/-- Settles O45: each command of the link layer at a port that is up by its equation (R295 to R297), and each entry by its stored write
(R289, R290, R299, R304). -/
theorem linkControlAndEntries : Obligations.LinkControlAndEntries := by
  unfold Obligations.LinkControlAndEntries
  refine ⟨fun s port => ?_, fun s r => ⟨fun _ => laneMapWrite_effect, fun _ _ => portModeWrite_effect, fun _ _ _ => routeTableWrite_effect,
    fun _ _ => unreachableChipsWrite_effect⟩⟩
  intro k q hup
  refine ⟨fun n => ?_, runs_creditGrant hup, ?_, fun hsince hdue => ?_, fun hnot => ?_⟩
  · have hretry := runs_linkRetryRequest hup n
    rw [linkRetry_eq] at hretry
    refine ⟨fun (hrun : retryRunOf q n < 16) => ?_, fun (hrun : 16 ≤ retryRunOf q n) => ?_, runs_linkAck hup n⟩
    · rwa [if_neg (Nat.not_le.mpr hrun)] at hretry
    · rw [if_pos hrun] at hretry
      have hdown := wentDown_portDown k 5 (putPort s k (retryCounted q n))
      exact ⟨_, hretry, hdown.state, hdown.downReason, by rw [hdown.downs, getPort_putPort]; rfl, hdown.replay, hdown.line⟩
  · have hdown := wentDown_portDown k 4 s
    exact ⟨_, runs_lossOfSignal hup, hdown.state, hdown.downReason, hdown.downs, hdown.replay, hdown.line, hdown.shuttles, hdown.tiles⟩
  · exact runs_linkAcknowledgementTimer_due hup (linkAckDue_iff.mpr ⟨hsince, hdue⟩)
  · refine runs_linkAcknowledgementTimer_notDue fun h => ?_
    obtain ⟨hsince, hdue⟩ := linkAckDue_iff.mp h
    exact hnot.elim hsince (Nat.not_lt.mpr hdue)

end Sys2Proof.Proofs
end

section
/-! The event controller's clock, the records of its rings and the writes of its registers, and the settlement of O55 (15 R419 to R429). -/

namespace Sys2Proof.Proofs
open Sys2Proof.Machine Sys2Proof.Stmt Sys2Proof.Laws

/-! ## Stores by number -/

/-- A store whose values are mapped reads mapped, where the default is mapped to itself. -/
theorem sGet_map {α : Type} {d : α} {f : α → α} (hd : f d = d) (k : Nat) (m : Sparse α) :
    sGet d k (m.map fun e => (e.1, f e.2)) = f (sGet d k m) := by
  induction m with
  | nil => exact hd.symm
  | cons e r ih =>
    simp only [List.map_cons, sGet, ih]
    split
    · rfl
    · split
      · exact hd.symm
      · rfl

theorem sGet_sPutAll_lt {α : Type} [DecidableEq α] (d : α) {j k : Nat} (h : j < k) (vs : List α) (m : Sparse α) :
    sGet d j (sPutAll d k vs m) = sGet d j m := by
  induction vs generalizing k m with
  | nil => rfl
  | cons v r ih => rw [sPutAll, ih (by omega), sGet_sPut_ne _ _ _ _ _ (by omega)]

/-- A list written from a number on is read back. -/
theorem sGet_sPutAll {α : Type} [DecidableEq α] (d : α) {i k : Nat} {vs : List α} {v : α} (h : vs[i]? = some v) (m : Sparse α) :
    sGet d (k + i) (sPutAll d k vs m) = v := by
  induction vs generalizing i k m with
  | nil => exact nomatch h
  | cons w r ih =>
    cases i with
    | zero =>
      obtain rfl : w = v := by simpa using h
      rw [sPutAll, Nat.add_zero, sGet_sPutAll_lt d (Nat.lt_succ_self k), sGet_sPut_self]
    | succ i =>
      rw [sPutAll, Nat.add_comm i 1, ← Nat.add_assoc]
      exact ih (by simpa using h) _

/-! ## Sources, rings and shadows by number -/

@[simp] theorem getSource_updSource (i : Nat) (f : EvSource → EvSource) (s : State) : getSource (updSource i f s) i = f (getSource s i) :=
  sGet_sPut_self ..

theorem getSource_updSource_ne {i j : Nat} (h : j ≠ i) (f : EvSource → EvSource) (s : State) :
    getSource (updSource i f s) j = getSource s j := sGet_sPut_ne _ _ _ _ _ h

@[simp] theorem getRing_updRing (r : Nat) (f : Ring → Ring) (s : State) : getRing (updRing r f s) r = f (getRing s r) := sGet_sPut_self ..

theorem getRing_updRing_ne {r j : Nat} (h : j ≠ r) (f : Ring → Ring) (s : State) : getRing (updRing r f s) j = getRing s j :=
  sGet_sPut_ne _ _ _ _ _ h

@[simp] theorem getShadow_updShadow (path : Option FuncNo) (f : Shadows → Shadows) (s : State) :
    getShadow (updShadow path f s) path = f (getShadow s path) := sGet_sPut_self ..

theorem shadowKey_injective : Function.Injective shadowKey := by
  rintro (_ | p) (_ | q) h
  · rfl
  · exact absurd h (Nat.ne_of_gt q.isLt)
  · exact absurd h (Nat.ne_of_lt p.isLt)
  · exact congrArg some (Fin.ext h)

theorem getShadow_updShadow_ne {p q : Option FuncNo} (h : q ≠ p) (f : Shadows → Shadows) (s : State) :
    getShadow (updShadow p f s) q = getShadow s q := sGet_sPut_ne _ _ _ _ _ (shadowKey_injective.ne h)

/-! ## What a write of the controller does to a source (R420, R422) -/

/-- `u` is `s` but for the sources and the stray completions: all that a write or the lines may touch. -/
def SourceEffect (s u : State) : Prop := ∃ m n, u = { s with events := { s.events with sources := m, stray := n } }

theorem SourceEffect.refl (s : State) : SourceEffect s s := ⟨_, _, rfl⟩

theorem SourceEffect.trans {s t u : State} (h : SourceEffect s t) (k : SourceEffect t u) : SourceEffect s u := by
  obtain ⟨_, _, rfl⟩ := h
  obtain ⟨m, n, rfl⟩ := k
  exact ⟨m, n, rfl⟩

theorem SourceEffect.covers_eq {s u : State} (h : SourceEffect s u) (path : Option FuncNo) (i : Nat) : covers u path i = covers s path i := by
  obtain ⟨_, _, rfl⟩ := h
  rfl

theorem sourceEffect_updSource (i : Nat) (f : EvSource → EvSource) (s : State) : SourceEffect s (updSource i f s) := ⟨_, _, rfl⟩

/-- One source's part of a bitmap write. -/
def bitStep (path : Option FuncNo) (b : BitVec 1024) (f : Nat → EvSource → EvSource) (s : State) (i : Nat) : State :=
  if b.getLsbD i && covers s path i then updSource i (f i) s else s

theorem eachBit_eq_foldl (s : State) (path : Option FuncNo) (b : BitVec 1024) (f : Nat → EvSource → EvSource) :
    eachBit s path b f = (List.range 1024).foldl (bitStep path b f) s := rfl

section
variable (path : Option FuncNo) (b : BitVec 1024) (f : Nat → EvSource → EvSource) (s : State)

theorem sourceEffect_bitStep (i : Nat) : SourceEffect s (bitStep path b f s i) := by
  unfold bitStep
  split
  · exact sourceEffect_updSource ..
  · exact .refl s

theorem sourceEffect_foldl_bitStep (l : List Nat) : SourceEffect s (l.foldl (bitStep path b f) s) :=
  List.foldlRecOn (motive := SourceEffect s) _ _ (.refl s) fun _ hu _ _ => hu.trans (sourceEffect_bitStep ..)

theorem sourceEffect_eachBit : SourceEffect s (eachBit s path b f) := by
  rw [eachBit_eq_foldl]
  exact sourceEffect_foldl_bitStep ..

theorem getSource_bitStep_ne {i j : Nat} (h : j ≠ i) : getSource (bitStep path b f s i) j = getSource s j := by
  unfold bitStep
  split
  · exact getSource_updSource_ne h ..
  · rfl

theorem getSource_bitStep (i : Nat) :
    getSource (bitStep path b f s i) i = if b.getLsbD i ∧ covers s path i then f i (getSource s i) else getSource s i := by
  unfold bitStep
  simp only [Bool.and_eq_true]
  split
  · exact getSource_updSource ..
  · rfl

/-- Of the sources below `n`, those that the bitmap names and the path covers are changed. -/
theorem getSource_foldl_bitStep (n i : Nat) : getSource ((List.range n).foldl (bitStep path b f) s) i =
    if i < n ∧ b.getLsbD i ∧ covers s path i then f i (getSource s i) else getSource s i := by
  induction n with
  | zero => exact (if_neg fun h => absurd h.1 (Nat.not_lt_zero i)).symm
  | succ n ih =>
    rw [List.range_succ, List.foldl_append, List.foldl_cons, List.foldl_nil]
    by_cases hi : i = n
    · subst hi
      have hunchanged := ih.trans (if_neg fun h => Nat.lt_irrefl i h.1)
      rw [getSource_bitStep, (sourceEffect_foldl_bitStep path b f s _).covers_eq, hunchanged]
      simp only [Nat.lt_succ_self, true_and]
    · rw [getSource_bitStep_ne _ _ _ _ hi, ih]
      simp only [show i < n + 1 ↔ i < n by omega]

theorem getSource_eachBit (i : Nat) :
    getSource (eachBit s path b f) i = if b.getLsbD i ∧ covers s path i then f i (getSource s i) else getSource s i := by
  rw [eachBit_eq_foldl, getSource_foldl_bitStep]
  have hbit : b.getLsbD i = true → i < 1024 := BitVec.lt_of_getLsbD
  simp only [and_iff_right_of_imp fun h : b.getLsbD i = true ∧ covers s path i = true => hbit h.1]

end

theorem isCondition_iff {i : Nat} : isCondition i = true ↔ i = 0x304 ∨ i = 0x305 := by simp [isCondition]

theorem sourceEffect_applyCtlWrite (w : CtlWrite) (s : State) : SourceEffect s (applyCtlWrite w s) := by
  cases w with
  | complete path n =>
    unfold applyCtlWrite
    dsimp only
    split
    · split
      · exact sourceEffect_updSource ..
      · exact ⟨_, _, rfl⟩
    · exact .refl s
  | enableSet | enableClear | pendingSet | pendingClear => exact sourceEffect_eachBit ..

theorem getSource_complete (path : Option FuncNo) (n : BitVec 10) (s : State) (i : Nat) :
    getSource (applyCtlWrite (.complete path n) s) i = afterWrite s (.complete path n) i (getSource s i) := by
  unfold applyCtlWrite afterWrite
  dsimp only
  by_cases hi : n.toNat = i
  · subst hi
    by_cases hcovers : covers s path n.toNat = true
    · by_cases hactive : (getSource s n.toNat).active = true
      · rw [if_pos hcovers, if_pos hactive, if_pos ⟨rfl, hcovers, hactive⟩, getSource_updSource]
      · rw [if_pos hcovers, if_neg hactive, if_neg fun ⟨_, _, ha⟩ => hactive ha]
        rfl
    · rw [if_neg hcovers, if_neg fun ⟨_, hc, _⟩ => hcovers hc]
  · rw [if_neg fun h : n.toNat = i ∧ _ => hi h.1]
    split
    · split
      · exact getSource_updSource_ne (Ne.symm hi) ..
      · rfl
    · rfl

theorem getSource_applyCtlWrite (w : CtlWrite) (s : State) (i : Nat) :
    getSource (applyCtlWrite w s) i = afterWrite s w i (getSource s i) := by
  cases w with
  | complete path n => exact getSource_complete ..
  | pendingClear path b =>
    rw [applyCtlWrite, getSource_eachBit, afterWrite]
    simp only [isCondition_iff]
  | enableSet path b => exact getSource_eachBit ..
  | enableClear path b => exact getSource_eachBit ..
  | pendingSet path b => exact getSource_eachBit ..

/-! ## Lines that make their sources pending (R420) -/

theorem sourceEffect_setPendings (s : State) : SourceEffect s (setPendings s) := ⟨_, _, rfl⟩

theorem pendEntry_eq (e : Nat × EvSource) : (if e.2.line then (e.1, { e.2 with pending := true }) else e) = (e.1, pend e.2) := by
  obtain ⟨i, line, multiple, detail, enable, pending, active⟩ := e
  cases line <;> simp [pend]

theorem getSource_setPendings (s : State) (i : Nat) : getSource (setPendings s) i = pend (getSource s i) := by
  simp only [getSource, setPendings, pendEntry_eq]
  exact sGet_map rfl ..

/-! ## The ring that a clock serves (R420, R423) -/

section
variable {c r : Nat} {s : State}

theorem serveRing_idle (h : ringKind (getRing s r) = 0 ∨ eligible s r = none) : serveRing c r s = s := by
  unfold serveRing
  dsimp only
  by_cases hkind : ringKind (getRing s r) = 0
  · exact if_pos hkind
  · rw [if_neg hkind, h.resolve_left hkind]

theorem serveRing_full {i : Nat} (hkind : ringKind (getRing s r) ≠ 0) (hsel : eligible s r = some i) (hroom : ringRoom (getRing s r) = false) :
    serveRing c r s = updRing r (fun g => { g with full := satAdd 16 g.full 1 }) s := by
  simp only [serveRing, if_neg hkind, hsel, hroom, Bool.not_false, if_true]

/-- The record that the selection of source `i` by ring `r` in clock `c` assembles. -/
def selectedRecord (s : State) (c r i : Nat) : Assembly :=
  { due := c + 16, ring := Fin.ofNat 17 r, source := BitVec.ofNat 10 i, multiple := (getSource s i).multiple, rack := s.rackNs
    detail := (getSource s i).detail, sBeat := if r = 0 then 0 else BitVec.ofNat 64 (hold s r).sBeat }

/-- A source that has been selected. -/
def selected (i : Nat) (e : EvSource) : EvSource :=
  { e with pending := false, active := true, multiple := false, line := (i = 0x304 ∨ i = 0x305) && e.line }

theorem serveRing_selects {i : Nat} (hkind : ringKind (getRing s r) ≠ 0) (hsel : eligible s r = some i)
    (hroom : ringRoom (getRing s r) = true) : serveRing c r s =
      { updSource i (selected i) s with
        events := { (updSource i (selected i) s).events with assembly := s.events.assembly ++ [selectedRecord s c r i] } } := by
  have hselected : (fun e : EvSource => { e with pending := false, active := true, line := isCondition i && e.line, multiple := false })
      = selected i := by
    funext e
    simp only [selected, ← isCondition_iff, Bool.decide_eq_true]
  simp only [serveRing, if_neg hkind, hsel, hroom, Bool.not_true, Bool.false_eq_true, if_false, hselected]
  rfl

end

/-- Serving a ring changes the event controller alone. -/
theorem serveRing_frame (c r : Nat) (s : State) : ∃ e, serveRing c r s = { s with events := e } := by
  by_cases hkind : ringKind (getRing s r) = 0
  · exact ⟨_, serveRing_idle (.inl hkind)⟩
  cases hsel : eligible s r with
  | none => exact ⟨_, serveRing_idle (.inr hsel)⟩
  | some i =>
    cases hroom : ringRoom (getRing s r) with
    | false => exact ⟨_, serveRing_full hkind hsel hroom⟩
    | true => exact ⟨_, serveRing_selects hkind hsel hroom⟩

/-! ## A clock of the controller (R420) -/

/-- The controller stands at clock `c`. -/
def atClock (c : Nat) (s : State) : State := { s with events := { s.events with clock := c } }

/-- The writes `ws` wait for a clock. -/
def withWrites (ws : List CtlWrite) (s : State) : State := { s with events := { s.events with writes := ws } }

theorem afterWrite_withWrites (ws : List CtlWrite) (s : State) (w : CtlWrite) (i : Nat) (e : EvSource) :
    afterWrite (withWrites ws s) w i e = afterWrite s w i e := by
  cases w <;> rfl

section
variable {s : State}

theorem controllerClock_heldOff {w : CtlWrite} {rest : List CtlWrite} (hw : s.events.writes = w :: rest) (hh : s.events.holdoff = true) :
    controllerClock s = atClock (s.events.clock + 1) (setPendings (applyCtlWrite w (withWrites rest s))) := by
  have hheld : (setPendings (applyCtlWrite w (withWrites rest s))).events.holdoff = true := by
    obtain ⟨m, n, heffect⟩ := sourceEffect_applyCtlWrite w (withWrites rest s)
    rw [heffect]
    exact hh
  unfold controllerClock
  rw [hw]
  exact congrArg (atClock _) (if_pos hheld)

theorem controllerClock_serves (hw : s.events.writes = []) (hh : s.events.holdoff = false) :
    controllerClock s = atClock (s.events.clock + 1) (serveRing s.events.clock (s.events.clock % 17) (setPendings s)) := by
  have hheld : ¬ (setPendings s).events.holdoff = true := by
    rw [Bool.not_eq_true]
    exact hh
  unfold controllerClock
  rw [hw]
  exact congrArg (atClock _) (if_neg hheld)

/-- R420, R421: with the events held off a clock applies its write and follows the lines, and nothing else. -/
theorem eventControllerClock_heldOff {w : CtlWrite} {rest : List CtlWrite} (hw : s.events.writes = w :: rest)
    (hh : s.events.holdoff = true) :
    ∃ u, Runs .eventControllerClock s u ∧ u.events.clock = s.events.clock + 1 ∧ u.events.writes = rest
      ∧ u.events.assembly = s.events.assembly ∧ u.events.rings = s.events.rings
      ∧ (∀ i, getSource u i = pend (afterWrite s w i (getSource s i))) ∧ u.parts = s.parts ∧ u.pack = s.pack := by
  refine ⟨_, congrArg Host.Outcome.next (controllerClock_heldOff hw hh), ?_⟩
  have hsource (i : Nat) : getSource (setPendings (applyCtlWrite w (withWrites rest s))) i = pend (afterWrite s w i (getSource s i)) := by
    rw [getSource_setPendings, getSource_applyCtlWrite, afterWrite_withWrites]
    rfl
  obtain ⟨m, n, heffect⟩ := (sourceEffect_applyCtlWrite w (withWrites rest s)).trans (sourceEffect_setPendings _)
  rw [heffect] at hsource ⊢
  exact ⟨rfl, rfl, rfl, rfl, hsource, rfl, rfl⟩

/-- R420, R423: what a clock with no write to apply does: the lines, and the ring of its number. -/
theorem eventControllerClock_serves (hw : s.events.writes = []) (hh : s.events.holdoff = false) :
    let c := s.events.clock
    let r := c % 17
    let g := getRing s r
    ∃ u, Runs .eventControllerClock s u ∧ u.events.clock = c + 1 ∧ u.parts = s.parts ∧ u.pack = s.pack
      ∧ (ringKind g = 0 ∨ eligible (setPendings s) r = none →
          u.events.assembly = s.events.assembly ∧ ∀ i, getSource u i = pend (getSource s i))
      ∧ (∀ i, ringKind g ≠ 0 → eligible (setPendings s) r = some i → ringRoom g = true →
          u.events.assembly = s.events.assembly ++ [selectedRecord (setPendings s) c r i]
          ∧ getSource u i = selected i (pend (getSource s i))
          ∧ (∀ j, j ≠ i → getSource u j = pend (getSource s j)) ∧ u.events.rings = s.events.rings)
      ∧ (∀ i, ringKind g ≠ 0 → eligible (setPendings s) r = some i → ringRoom g = false →
          u.events.assembly = s.events.assembly ∧ (getRing u r).full.toNat = min (g.full.toNat + 1) 65535
          ∧ ∀ j, getSource u j = pend (getSource s j)) := by
  intro c r g
  have hframe : (serveRing c r (setPendings s)).parts = s.parts ∧ (serveRing c r (setPendings s)).pack = s.pack := by
    obtain ⟨e, he⟩ := serveRing_frame c r (setPendings s)
    rw [he]
    exact ⟨rfl, rfl⟩
  refine ⟨_, congrArg Host.Outcome.next (controllerClock_serves hw hh), rfl, hframe.1, hframe.2, fun hidle => ?_, fun i hkind hsel hroom => ?_,
    fun i hkind hsel hroom => ?_⟩
  · rw [serveRing_idle (s := setPendings s) hidle]
    exact ⟨rfl, getSource_setPendings s⟩
  · rw [serveRing_selects (s := setPendings s) hkind hsel hroom]
    refine ⟨rfl, ?_, fun j hj => ?_, rfl⟩
    · exact (getSource_updSource ..).trans (by rw [getSource_setPendings])
    · exact (getSource_updSource_ne hj ..).trans (getSource_setPendings s j)
  · rw [serveRing_full (s := setPendings s) hkind hsel hroom]
    refine ⟨rfl, ?_, getSource_setPendings s⟩
    have hring := getRing_updRing r (fun g => { g with full := satAdd 16 g.full 1 }) (setPendings s)
    exact (congrArg (fun g : Ring => g.full.toNat) hring).trans (satAdd_toNat ..)

end

/-! ## What a record or a register write may change (R424, R425, R427) -/

/-- Ring `r` becomes `g`; the other rings, the sources, the records that wait and the partitions stay. -/
structure RingBecomes (s u : State) (r : Nat) (g : Ring) : Prop where
  ring : getRing u r = g
  others : ∀ j, j ≠ r → getRing u j = getRing s j
  sources : u.events.sources = s.events.sources
  assembly : u.events.assembly = s.events.assembly
  parts : u.parts = s.parts

theorem RingBecomes.trans {s t u : State} {r : Nat} {g k : Ring} (h : RingBecomes s t r g) (i : RingBecomes t u r k) : RingBecomes s u r k where
  ring := i.ring
  others j hj := (i.others j hj).trans (h.others j hj)
  sources := i.sources.trans h.sources
  assembly := i.assembly.trans h.assembly
  parts := i.parts.trans h.parts

theorem ringBecomes_updRing (r : Nat) (f : Ring → Ring) (s : State) : RingBecomes s (updRing r f s) r (f (getRing s r)) :=
  ⟨getRing_updRing .., fun _ hj => getRing_updRing_ne hj .., rfl, rfl, rfl⟩

/-- What leaves the event controller and the partitions alone leaves the ring as it is. -/
theorem ringBecomes_self {s u : State} (r : Nat) (hevents : u.events = s.events) (hparts : u.parts = s.parts) :
    RingBecomes s u r (getRing s r) := by
  refine ⟨?_, fun j _ => ?_, congrArg _ hevents, congrArg _ hevents, hparts⟩ <;> rw [getRing, hevents, getRing]

theorem ringBecomes_putOut (r : Nat) (o : Outbound) (s : State) : RingBecomes s (putOut o s) r (getRing s r) := ringBecomes_self r rfl rfl

theorem ringBecomes_sendMsix (r : Nat) (s : State) : RingBecomes s (sendMsix r s) r (getRing s r) := by
  unfold sendMsix
  split
  · exact ringBecomes_self r rfl rfl
  · exact ringBecomes_putOut ..

theorem ringBecomes_ringLevel (r : Nat) (s : State) : RingBecomes s (ringLevel r s) r (getRing s r) := by
  unfold ringLevel
  dsimp only
  split <;> exact ringBecomes_self r rfl rfl

theorem ringLevel_of_kind {r : Nat} {s : State} (h : ringKind (getRing s r) ≠ 2) : ringLevel r s = s := if_neg h

theorem outbox_sendMsix {r : Nat} {s : State} (h : (getMailbox s r).masked = false) :
    (sendMsix r s).pack.io.outbox = s.pack.io.outbox ++ [.msix r] := by
  rw [sendMsix, if_neg (by rw [h]; exact Bool.false_ne_true)]
  rfl

/-! ## A record enters its ring (R423 to R425) -/

/-- Ring `g` with the words of a record at its tail, which an internal ring keeps. -/
def withStored (g : Ring) (ws : List W64) : Ring :=
  { g with store := if ringKind g = 3 then sPutAll 0 (4 * g.tail.toNat) ws g.store else g.store }

/-- Ring `g` with one record more, its tail at `next`. -/
def advanced (next : Nat) (g : Ring) : Ring :=
  { g with tail := BitVec.ofNat 12 next, seq := g.seq + 1, records := g.records + 1, lap := if next = 0 then !g.lap else g.lap }

/-- Ring `g` once it has taken the words of a record. -/
def withRecord (g : Ring) (ws : List W64) : Ring := advanced ((g.tail.toNat + 1) % ringRecords g) (withStored g ws)

theorem withStored_of_kind {g : Ring} (h : ringKind g ≠ 3) (ws : List W64) : withStored g ws = g := by
  rw [withStored, if_neg h]

section
variable {s : State} {r : Nat} {ws : List W64}

theorem ringBecomes_storeRecord : RingBecomes s (storeRecord r ws s) r (withStored (getRing s r) ws) := by
  by_cases hkind : ringKind (getRing s r) = 3
  · simp only [storeRecord, hkind, withStored, if_true]
    exact ringBecomes_updRing ..
  · rw [withStored_of_kind hkind]
    unfold storeRecord
    dsimp only
    split
    · exact ringBecomes_putOut ..
    · exact ringBecomes_self r rfl rfl
    next h => exact absurd h hkind
    · exact ringBecomes_self r rfl rfl

theorem storeRecord_hostMemory (h : ringKind (getRing s r) = 1) : storeRecord r ws s =
    putOut (.hostWrite r ((getRing s r).base + BitVec.ofNat 64 (32 * (getRing s r).tail.toNat)) (ws.flatMap fun w => leBytes 8 w.toNat)) s := by
  simp only [storeRecord, h]
  rfl

/-- Ring `r` has taken the words of a record, before its notice. -/
def recordTaken (r : Nat) (ws : List W64) (s : State) : State :=
  updRing r (advanced (((getRing s r).tail.toNat + 1) % ringRecords (getRing s r))) (storeRecord r ws s)

theorem ringTakes_eq : ringTakes r ws s =
    if ringKind (getRing s r) = 1 then
      (if (getRing s r).tail = (getRing s r).head then sendMsix r (recordTaken r ws s) else recordTaken r ws s)
    else ringLevel r (recordTaken r ws s) := rfl

theorem ringBecomes_recordTaken : RingBecomes s (recordTaken r ws s) r (withRecord (getRing s r) ws) := by
  have hstored := ringBecomes_storeRecord (s := s) (r := r) (ws := ws)
  have hadvanced := ringBecomes_updRing r (advanced (((getRing s r).tail.toNat + 1) % ringRecords (getRing s r))) (storeRecord r ws s)
  rw [hstored.ring] at hadvanced
  exact hstored.trans hadvanced

theorem ringBecomes_ringTakes : RingBecomes s (ringTakes r ws s) r (withRecord (getRing s r) ws) := by
  have htaken := ringBecomes_recordTaken (s := s) (r := r) (ws := ws)
  have hmsix := ringBecomes_sendMsix r (recordTaken r ws s)
  have hlevel := ringBecomes_ringLevel r (recordTaken r ws s)
  rw [htaken.ring] at hmsix hlevel
  rw [ringTakes_eq]
  split
  · split
    · exact htaken.trans hmsix
    · exact htaken
  · exact htaken.trans hlevel

/-- R425, R427: a record of a ring in host memory is a posted write, and an empty ring that takes one interrupts. -/
theorem outbox_ringTakes_hostMemory (hkind : ringKind (getRing s r) = 1) (hmask : (getMailbox s r).masked = false) :
    (ringTakes r ws s).pack.io.outbox = s.pack.io.outbox
      ++ [.hostWrite r ((getRing s r).base + BitVec.ofNat 64 (32 * (getRing s r).tail.toNat)) (ws.flatMap fun w => leBytes 8 w.toNat)]
      ++ (if (getRing s r).tail = (getRing s r).head then [.msix r] else []) := by
  rw [ringTakes_eq, if_pos hkind, recordTaken, storeRecord_hostMemory hkind]
  split
  · exact outbox_sendMsix hmask
  · exact (List.append_nil _).symm

end

theorem recordNow_notRecording {s : State} {p : Nat} (h : (getPart s p).recd.state ≠ 1) (kind : Nat) (loc : Bool) (flow target srcChip : Nat)
    (b : Bytes) : recordNow p kind loc flow target srcChip b s = s :=
  if_pos (by rw [decide_eq_true h, Bool.or_true])

/-- The records `as` wait for their clocks. -/
def withAssembly (as : List Assembly) (s : State) : State := { s with events := { s.events with assembly := as } }

section
variable {s : State} {a : Assembly} {rest : List Assembly}

theorem writeRecordDue_early (hasm : s.events.assembly = a :: rest) (hdue : s.events.clock < a.due) : writeRecordDue s = s := by
  simp only [writeRecordDue, hasm, hdue, if_true]

theorem writeRecordDue_due (hasm : s.events.assembly = a :: rest) (hdue : a.due ≤ s.events.clock) (hreplay : replaying s a.ring.val = false)
    (hrec : (getPart s a.ring.val).recd.state ≠ 1) (hkind : ringKind (getRing s a.ring.val) ≠ 0) :
    writeRecordDue s = ringTakes a.ring.val (recordWords (getRing s a.ring.val) a) (withAssembly rest s) := by
  have htaken := ringBecomes_ringTakes (s := withAssembly rest s) (r := a.ring.val) (ws := recordWords (getRing s a.ring.val) a)
  have hon : ¬ (decide (ringKind (getRing s a.ring.val) = 0) || replaying s a.ring.val) = true := by simp [hkind, hreplay]
  have hquiet : (getPart (ringTakes a.ring.val (recordWords (getRing s a.ring.val) a) (withAssembly rest s)) a.ring.val).recd.state ≠ 1 := by
    rw [getPart, htaken.parts]
    exact hrec
  unfold writeRecordDue
  rw [hasm]
  exact (if_neg (Nat.not_lt.mpr hdue)).trans ((if_neg hon).trans (recordNow_notRecording hquiet ..))

theorem eventRecordWrite_due (hasm : s.events.assembly = a :: rest) (hdue : a.due ≤ s.events.clock) (hreplay : replaying s a.ring.val = false)
    (hrec : (getPart s a.ring.val).recd.state ≠ 1) (hkind : ringKind (getRing s a.ring.val) ≠ 0) :
    let r := a.ring.val
    let g := getRing s r
    let ws := recordWords g a
    let next := (g.tail.toNat + 1) % 2 ^ ringLog2 g
    ∃ u, Runs .eventRecordWrite s u ∧ u.events.assembly = rest ∧ u.events.sources = s.events.sources ∧ u.parts = s.parts
      ∧ (getRing u r).tail.toNat = next % 4096 ∧ (getRing u r).seq = g.seq + 1 ∧ (getRing u r).records = g.records + 1
      ∧ (getRing u r).lap = (if next = 0 then !g.lap else g.lap) ∧ (getRing u r).head = g.head
      ∧ (∀ j, j ≠ r → getRing u j = getRing s j)
      ∧ (ringKind g = 3 → ∀ i, i < 4 → ∀ w, ws[i]? = some w → (sGet 0 (4 * g.tail.toNat + i) (getRing u r).store : W64) = w)
      ∧ (ringKind g = 1 → (getMailbox s r).masked = false → u.pack.io.outbox = s.pack.io.outbox
          ++ [.hostWrite r (g.base + BitVec.ofNat 64 (32 * g.tail.toNat)) (ws.flatMap fun w => leBytes 8 w.toNat)]
          ++ (if g.tail = g.head then [.msix r] else [])) := by
  intro r g ws next
  have htaken := ringBecomes_ringTakes (s := withAssembly rest s) (r := r) (ws := ws)
  refine ⟨_, congrArg Host.Outcome.next (writeRecordDue_due hasm hdue hreplay hrec hkind), htaken.assembly, htaken.sources, htaken.parts, ?_⟩
  rw [htaken.ring]
  refine ⟨BitVec.toNat_ofNat .., rfl, rfl, rfl, rfl, htaken.others, fun hinternal i _ w hw => ?_, fun hhost hmask => ?_⟩
  · have hstore : (withRecord g ws).store = sPutAll 0 (4 * g.tail.toNat) ws g.store := if_pos hinternal
    exact (congrArg (sGet 0 _) hstore).trans (sGet_sPutAll 0 hw _)
  · exact outbox_ringTakes_hostMemory (s := withAssembly rest s) (r := r) (ws := ws) hhost hmask

end

/-! ## Writes of the controller's registers (R420, R424) -/

/-- A register write waits for a clock, and its shadow is set at once (log 58). -/
theorem register_write {c : Instr} {s : State} {w : CtlWrite} {path : Option FuncNo} (f : Shadows → Shadows)
    (hc : exec c s = .next (updShadow path f (sendCtl w s))) :
    ∃ u, Runs c s u ∧ u.events.writes = s.events.writes ++ [w] ∧ getShadow u path = f (getShadow s path)
      ∧ (∀ q, q ≠ path → getShadow u q = getShadow s q)
      ∧ u.events.sources = s.events.sources ∧ u.events.rings = s.events.rings ∧ u.parts = s.parts ∧ u.pack = s.pack :=
  ⟨_, hc, rfl, getShadow_updShadow .., fun _ hq => getShadow_updShadow_ne hq .., rfl, rfl, rfl, rfl⟩

/-! ## Writes of a ring's registers (R424) -/

theorem bits_and (hi lo a b : Nat) : bits hi lo (a &&& b) = bits hi lo a &&& bits hi lo b := by
  rw [bits, Nat.and_div_two_pow, Nat.and_mod_two_pow, bits, bits]

theorem bits_lt (hi lo v : Nat) : bits hi lo v < 2 ^ (hi + 1 - lo) := Nat.mod_lt _ (Nat.two_pow_pos _)

/-- The fields that a setting of a ring keeps are all of a value without reserved bits. -/
theorem ringCfg_fields {v : W64} (h : bits 1 0 v.toNat + bits 19 4 v.toNat * 16 = v.toNat) :
    n64 (bits 1 0 (v &&& 0xFFFF3).toNat + bits 19 4 (v &&& 0xFFFF3).toNat * 16) = v := by
  have hkind : bits 1 0 (v &&& 0xFFFF3).toNat = bits 1 0 v.toNat := by
    rw [BitVec.toNat_and, bits_and]
    exact (Nat.and_two_pow_sub_one_eq_mod _ 2).trans (Nat.mod_eq_of_lt (bits_lt ..))
  have hrest : bits 19 4 (v &&& 0xFFFF3).toNat = bits 19 4 v.toNat := by
    rw [BitVec.toNat_and, bits_and]
    exact (Nat.and_two_pow_sub_one_eq_mod _ 16).trans (Nat.mod_eq_of_lt (bits_lt ..))
  rw [hkind, hrest, h, n64, BitVec.ofNat_toNat, BitVec.setWidth_eq]

section
variable {s : State} {r : FuncNo} {v : W64}

theorem runs_ringCfgWrite {code : Nat} {u : State} (h : writeRingCfg r.val v s = (code, u)) : Runs (.ringCfgWrite r v) s (answer code [] u) :=
  congrArg (fun x : Nat × State => Host.Outcome.next (answer x.1 [] x.2)) h

theorem runs_ringBaseWrite {code : Nat} {u : State} (h : writeRingBase r.val v s = (code, u)) : Runs (.ringBaseWrite r v) s (answer code [] u) :=
  congrArg (fun x : Nat × State => Host.Outcome.next (answer x.1 [] x.2)) h

theorem ringLegal_off {p base : Nat} {cfg : Nat} (h : bits 1 0 cfg = 0) : ringLegal s p cfg base = true := if_pos h

section
variable (hv : bits 1 0 v.toNat + bits 19 4 v.toNat * 16 = v.toNat)
include hv

theorem writeRingCfg_on (hlegal : ringLegal s r.val v.toNat (getRing s r.val).base.toNat = true) (hon : bits 1 0 v.toNat ≠ 0)
    (hkind : ringKind (getRing s r.val) = 0) : writeRingCfg r.val v s =
      (0, updRing r.val (fun g => { g with cfg := v, head := 0, tail := 0, lap := false, seq := 0, store := [] }) s) := by
  simp only [writeRingCfg, ringCfg_fields hv, hlegal, hon, hkind, Bool.not_true, Bool.false_eq_true, ne_eq, not_true_eq_false, if_false]

theorem writeRingCfg_off (hoff : bits 1 0 v.toNat = 0) (hkind : ringKind (getRing s r.val) ≠ 2) :
    writeRingCfg r.val v s = (0, updRing r.val (fun g => { g with cfg := v, store := [] }) s) := by
  simp only [writeRingCfg, ringCfg_fields hv, ringLegal_off hoff, hoff, hkind, Bool.not_true, Bool.false_eq_true, if_true, if_false]

theorem writeRingCfg_busy (hlegal : ringLegal s r.val v.toNat (getRing s r.val).base.toNat = true) (hon : bits 1 0 v.toNat ≠ 0)
    (hkind : ringKind (getRing s r.val) ≠ 0) (hne : v ≠ (getRing s r.val).cfg) : writeRingCfg r.val v s = (codeRingBusy, s) := by
  simp only [writeRingCfg, ringCfg_fields hv, hlegal, hon, hkind, hne, Bool.not_true, Bool.false_eq_true, ne_eq, not_false_eq_true, if_true, if_false]

theorem writeRingCfg_illegal (hlegal : ringLegal s r.val v.toNat (getRing s r.val).base.toNat = false) :
    writeRingCfg r.val v s = (codeRingInvalid, s) := by
  simp only [writeRingCfg, ringCfg_fields hv, hlegal, Bool.not_false, if_true]

end

theorem writeRingBase_off (hkind : ringKind (getRing s r.val) = 0) (hexists : ringExists s r.val = true) :
    writeRingBase r.val v s = (0, updRing r.val (fun g => { g with base := v }) s) := by
  simp only [writeRingBase, hkind, hexists, Bool.not_true, Bool.false_eq_true, ne_eq, not_true_eq_false, if_false]

theorem writeRingBase_busy (hkind : ringKind (getRing s r.val) ≠ 0) (hne : v ≠ (getRing s r.val).base) :
    writeRingBase r.val v s = (codeRingBusy, s) := by
  simp only [writeRingBase, hkind, hne, ne_eq, not_false_eq_true, if_true, if_false]

theorem writeRingHead_quiet {h : BitVec 12} (hkind : ringKind (getRing s r.val) = 0 ∨ ringKind (getRing s r.val) = 3) :
    writeRingHead r.val h s = updRing r.val (fun g => { g with head := h }) s := by
  have hsame : ringKind (getRing (updRing r.val (fun g => { g with head := h }) s) r.val) = ringKind (getRing s r.val) := by
    rw [getRing_updRing]
    rfl
  rw [writeRingHead, if_neg (by omega), ringLevel_of_kind (by omega)]

/-- R427: a head that leaves records in a ring in host memory interrupts. -/
theorem ringHeadWrite_hostMemory {h : BitVec 12} (hkind : ringKind (getRing s r.val) = 1) (hmask : (getMailbox s r.val).masked = false) :
    ∃ u, Runs (.ringHeadWrite r h) s u ∧ getRing u r.val = { getRing s r.val with head := h }
      ∧ u.pack.io.outbox = s.pack.io.outbox ++ (if h = (getRing s r.val).tail then [] else [.msix r.val]) := by
  have hwritten := ringBecomes_updRing r.val (fun g => { g with head := h }) s
  refine ⟨writeRingHead r.val h s, rfl, ?_⟩
  have hsame : ringKind { getRing s r.val with head := h } = 1 := hkind
  simp only [writeRingHead, hwritten.ring, hsame, if_true, ne_eq, ite_not]
  split
  · exact ⟨hwritten.ring, (List.append_nil _).symm⟩
  · exact ⟨(ringBecomes_sendMsix ..).ring.trans hwritten.ring, outbox_sendMsix hmask⟩

end

/-- Settles O55: the clock by its two steps (R420 to R423), the record due first by what its ring takes (R423 to R425, R427), and each register
by its write (R424, R429); that a write's shadow is set while the write waits is the model's choice (log 58), as is what the mask of MSI-X does
(log 39). -/
theorem eventControllerAndRings : Obligations.EventControllerAndRings := by
  unfold Obligations.EventControllerAndRings
  refine ⟨fun s => ⟨fun w rest => eventControllerClock_heldOff, fun hw hh => ?_⟩, fun s a rest => ?_, fun s via b n => ?_, fun s r v => ?_⟩
  · obtain ⟨u, hruns, hclock, hparts, hpack, hidle, hselect, hfull⟩ := eventControllerClock_serves hw hh
    refine ⟨u, hruns, hclock, hparts, hpack, hidle, fun i hkind hsel hroom => ?_, hfull⟩
    obtain ⟨hassembly, hsource, hothers, hrings⟩ := hselect i hkind hsel hroom
    refine ⟨?_, hsource, hothers, hrings⟩
    rw [hassembly, selectedRecord, getSource_setPendings]
    rfl
  · intro r g ws next hasm
    exact ⟨fun hearly => congrArg Host.Outcome.next (writeRecordDue_early hasm hearly), fun hdue => eventRecordWrite_due hasm hdue⟩
  · intro path wrote
    exact ⟨register_write (fun h => { h with enableSet := b }) rfl, register_write (fun h => { h with enableClear := b }) rfl,
      register_write (fun h => { h with pendingSet := b }) rfl, register_write (fun h => { h with pendingClear := b }) rfl,
      register_write (fun h => { h with complete := n.setWidth 16 }) rfl⟩
  · intro g ringAs
    refine ⟨fun hv => ⟨fun hlegal hon hkind => runs_ringCfgWrite (writeRingCfg_on hv hlegal hon hkind),
      fun hoff hkind => runs_ringCfgWrite (writeRingCfg_off hv hoff hkind),
      fun hlegal hon hkind hne => runs_ringCfgWrite (writeRingCfg_busy hv hlegal hon hkind hne),
      fun hlegal => runs_ringCfgWrite (writeRingCfg_illegal hv hlegal)⟩,
      fun hkind hexists => runs_ringBaseWrite (writeRingBase_off hkind hexists),
      fun hkind hne => runs_ringBaseWrite (writeRingBase_busy hkind hne),
      fun h => ⟨fun hkind => congrArg Host.Outcome.next (writeRingHead_quiet hkind), ringHeadWrite_hostMemory⟩⟩

end Sys2Proof.Proofs
end
